-- ==== Sys2Proof/Word.lean ====
section
/-! DEFINITION. The word types of NETBLK: the widths that spec/00_scope.md R11 and spec/30_encoding.md R57 give. -/

namespace Sys2Proof

/-- One byte of a packet, of BUF or of a header (R11: unsigned, 8 bits). -/
abbrev Byte := BitVec 8

/-- A 16-bit wire field or checksum (R12 `be16`, R14). -/
abbrev Half := BitVec 16

/-- A host-visible register or a command word (R9 `REG_WIDTH`, R58). -/
abbrev Word := BitVec 32

/-- A host-port address (R9 `HOST_ADDR_WIDTH`, R36). -/
abbrev Addr := BitVec 16

/-- One host transaction as the port carries it: the 64-bit format HT (R57). -/
abbrev Record := BitVec 64

end Sys2Proof
end

