-- ==== Sys2Proof/Syntax.lean ====
section
/-! DEFINITION. The instructions of NETBLK: one constructor for each row of spec/opcode_table.json. The nineteen
commands (R60) carry no operand in their word (R58): they read ARG0 to ARG3. The four host transactions (R37) carry an
address, and a write its data. -/

namespace Sys2Proof

/-- The rows of spec/opcode_table.json, in its order. -/
inductive Instr where
  /-- CSUM_CLEAR, R72. -/
  | csumClear
  /-- CSUM_FEED, R73. -/
  | csumFeed
  /-- CSUM_FINAL, R74. -/
  | csumFinal
  /-- CSUM_CALC, R75. -/
  | csumCalc
  /-- LB_SEND, R82. -/
  | lbSend
  /-- LB_RECV, R83. -/
  | lbRecv
  /-- LB_CONSUME, R84. -/
  | lbConsume
  /-- NET_INIT, R91. -/
  | netInit
  /-- IP_IS_LOOPBACK, R92. -/
  | ipIsLoopback
  /-- IP_BUILD_HDR, R93. -/
  | ipBuildHdr
  /-- IP_PARSE_HDR, R94. -/
  | ipParseHdr
  /-- IP_SEND, R95. -/
  | ipSend
  /-- IP_PROCESS, R97. -/
  | ipProcess
  /-- ICMP_INIT, R104. -/
  | icmpInit
  /-- ICMP_BUILD_REQ, R105. -/
  | icmpBuildReq
  /-- ICMP_BUILD_REP, R106. -/
  | icmpBuildRep
  /-- ICMP_SEND_REQ, R107. -/
  | icmpSendReq
  /-- ICMP_SEND_REP, R108. -/
  | icmpSendRep
  /-- ICMP_HANDLE, R109. -/
  | icmpHandle
  /-- RD8, R37: read one byte. -/
  | rd8 (addr : Addr)
  /-- WR8, R37: write one byte. -/
  | wr8 (addr : Addr) (data : Byte)
  /-- RD32, R37: read one register. -/
  | rd32 (addr : Addr)
  /-- WR32, R37: write one register; at CMD it starts a command (R22). -/
  | wr32 (addr : Addr) (data : Word)
  deriving DecidableEq, Repr

end Sys2Proof
end

