-- ==== Sys2Proof/WellFormed.lean ====
section
/-! DEFINITION. Which terms of `Instr` are the reading of some transaction. The types already bound every field. The one
check left keeps a transaction to one reading: a CMD write of a legal command word is that command (R22, R60, R66), so the
same bits spelled as a plain WR32 are no well-formed term. -/

namespace Sys2Proof

/-- R60: the nineteen legal command words, `zext_32(opcode)`. -/
def legalCommandWords : List Word :=
  [0x10, 0x11, 0x12, 0x13,
   0x20, 0x21, 0x22,
   0x30, 0x31, 0x32, 0x33, 0x34, 0x35,
   0x40, 0x41, 0x42, 0x43, 0x44, 0x45]

/-- A WR32 to CMD (address 0, R21) is well formed only where its data is no legal command word; every other term is
well formed. -/
def WellFormed : Instr → Bool
  | .wr32 a v => !(a == 0 && legalCommandWords.contains v)
  | .csumClear | .csumFeed | .csumFinal | .csumCalc | .lbSend | .lbRecv | .lbConsume
  | .netInit | .ipIsLoopback | .ipBuildHdr | .ipParseHdr | .ipSend | .ipProcess
  | .icmpInit | .icmpBuildReq | .icmpBuildRep | .icmpSendReq | .icmpSendRep | .icmpHandle
  | .rd8 _ | .wr8 _ _ | .rd32 _ => true

end Sys2Proof
end

