-- ==== Sys2Proof/Decode.lean ====
section
/-! DEFINITION. From a host transaction's 64 bits to an instruction (R57), from a command word to a command (R58, R60,
R62), and back. -/

namespace Sys2Proof

/-- Why a 64-bit record is no host transaction (R57). The machine answers each with a host bus fault (R116), so none stops a
run. -/
inductive DecodeError where
  /-- Bits [15:2] are not zero. Safe: R57 names the outcome, F_BUS. -/
  | reservedNotZero
  /-- An RD8 or RD32 whose data field [63:32] is not zero. Safe: R57 names the outcome, F_BUS. -/
  | readDataNotZero
  /-- A WR8 whose bits [63:40] are not zero. Safe: R57 names the outcome, F_BUS. -/
  | byteDataTooWide
  deriving DecidableEq, Repr

/-- R60: the opcode map. -/
def opcodeMap (op : Byte) : Option Instr :=
  match op.toNat with
  | 0x10 => some .csumClear
  | 0x11 => some .csumFeed
  | 0x12 => some .csumFinal
  | 0x13 => some .csumCalc
  | 0x20 => some .lbSend
  | 0x21 => some .lbRecv
  | 0x22 => some .lbConsume
  | 0x30 => some .netInit
  | 0x31 => some .ipIsLoopback
  | 0x32 => some .ipBuildHdr
  | 0x33 => some .ipParseHdr
  | 0x34 => some .ipSend
  | 0x35 => some .ipProcess
  | 0x40 => some .icmpInit
  | 0x41 => some .icmpBuildReq
  | 0x42 => some .icmpBuildRep
  | 0x43 => some .icmpSendReq
  | 0x44 => some .icmpSendRep
  | 0x45 => some .icmpHandle
  | _ => none

/-- R58, R62: a command word is legal when bits [31:8] are zero and its opcode is in the map. -/
def decodeCommand (w : Word) : Option Instr :=
  if w.extractLsb' 8 24 = 0 then opcodeMap (w.extractLsb' 0 8) else none

/-- R57: a host transaction from its record, or the reason it is refused. A WR32 to CMD whose data is a legal command
word reads as that command (R22, R66). -/
def decode (h : Record) : Except DecodeError Instr :=
  let kind := h.extractLsb' 0 2
  let addr := h.extractLsb' 16 16
  let data := h.extractLsb' 32 32
  if h.extractLsb' 2 14 ≠ 0 then .error .reservedNotZero
  else match kind.toNat with
    | 0 => if data = 0 then .ok (.rd8 addr) else .error .readDataNotZero
    | 1 => if data.extractLsb' 8 24 = 0 then .ok (.wr8 addr (data.extractLsb' 0 8)) else .error .byteDataTooWide
    | 2 => if data = 0 then .ok (.rd32 addr) else .error .readDataNotZero
    | _ =>
      if addr = 0 then
        match decodeCommand data with
        | some c => .ok c
        | none => .ok (.wr32 addr data)
      else .ok (.wr32 addr data)

/-- R57: kinds RD8 (0b00) and RD32 (0b10) are reads; a refused record of such a kind still returns 0. -/
def isRead (h : Record) : Bool := h.extractLsb' 0 1 = 0

/-- R60: the command word of a command; a host transaction has none. -/
def commandWord : Instr → Option Word
  | .csumClear => some 0x00000010
  | .csumFeed => some 0x00000011
  | .csumFinal => some 0x00000012
  | .csumCalc => some 0x00000013
  | .lbSend => some 0x00000020
  | .lbRecv => some 0x00000021
  | .lbConsume => some 0x00000022
  | .netInit => some 0x00000030
  | .ipIsLoopback => some 0x00000031
  | .ipBuildHdr => some 0x00000032
  | .ipParseHdr => some 0x00000033
  | .ipSend => some 0x00000034
  | .ipProcess => some 0x00000035
  | .icmpInit => some 0x00000040
  | .icmpBuildReq => some 0x00000041
  | .icmpBuildRep => some 0x00000042
  | .icmpSendReq => some 0x00000043
  | .icmpSendRep => some 0x00000044
  | .icmpHandle => some 0x00000045
  | .rd8 _ | .wr8 _ _ | .rd32 _ | .wr32 _ _ => none

/-- R57: the record with kind in [1:0], address in [31:16], data in [63:32], and its reserved bits zero. -/
def record (kind : BitVec 2) (addr : Addr) (data : Word) : Record :=
  BitVec.ofNat 64 (kind.toNat + addr.toNat * 2 ^ 16 + data.toNat * 2 ^ 32)

/-- The 64-bit record of an instruction: a command is the WR32 of its command word to CMD (R58, R66). -/
def encode : Instr → Record
  | .rd8 a => record 0b00 a 0
  | .wr8 a b => record 0b01 a (b.setWidth 32)
  | .rd32 a => record 0b10 a 0
  | .wr32 a v => record 0b11 a v
  | i => record 0b11 0 ((commandWord i).getD 0)

/-- How the bits of one row of spec/opcode_table.json stand on the host port. A row of format C is a command word: the host
writes it to CMD (R58, R22). A row of format HT is the record itself (R57). No legal command word is an admitted record, so
the two never meet: every legal opcode has a bit in [7:4], where a record must hold zeros. -/
def portRecord (nbits w : Nat) : Record :=
  if nbits ≤ 32 ∧ w < 2 ^ 32 ∧ (decodeCommand (BitVec.ofNat 32 w)).isSome then
    record 0b11 0 (BitVec.ofNat 32 w)
  else BitVec.ofNat 64 w

/-- The instruction the decoder reads from a row's bits. -/
def decodeTableWord (nbits w : Nat) : Option Instr :=
  match decode (portRecord nbits w) with
  | .ok i => some i
  | .error _ => none

end Sys2Proof
end

