-- ==== Sys2Proof/Config.lean ====
section
/-! DEFINITION. The parameters of NETBLK: those the document fixes (R8), those the spec fixes (R9), and the one
open parameter, `buf_init` (R10), as a constant that has no body. -/

namespace Sys2Proof.Config

open Sys2Proof

/-- R8 `LB_DEPTH`: how many packets the loopback queue holds. -/
abbrev lbDepth : Nat := 16
/-- R8 `LB_SLOT_BYTES`: the longest packet the queue accepts. -/
abbrev lbSlotBytes : Nat := 1514
/-- R8 `IP_HDR_LEN`. -/
abbrev ipHdrLen : Nat := 20
/-- R8 `IP_VER_IHL`: byte 0 of every header built. -/
abbrev ipVerIhl : Byte := 0x45
/-- R8 `IP_TTL`: byte 8 of every header built. -/
abbrev ipTtl : Byte := 64
/-- R8 `IP_MAX_PACKET`: the longest header and payload that IP send accepts. -/
abbrev ipMaxPacket : Nat := 1500
/-- R8 `IP_PROTO_ICMP`. -/
abbrev ipProtoIcmp : Byte := 1
/-- R8 `IP_LOOPBACK_NET`: the first octet of the only routable network. -/
abbrev ipLoopbackNet : Byte := 127
/-- R8 `IP_ADDR_ANY`, 0.0.0.0: the document names it and no command uses it. -/
abbrev ipAddrAny : Word := 0x00000000
/-- R8 `IP_ADDR_LOOPBACK`, 127.0.0.1: the source address of every packet sent. -/
abbrev ipAddrLoopback : Word := 0x7F000001
/-- R8 `ICMP_HDR_LEN`. -/
abbrev icmpHdrLen : Nat := 8
/-- R8 `ICMP_MAX_MESSAGE`: the longest echo header and data. -/
abbrev icmpMaxMessage : Nat := 1480
/-- R8 `ICMP_TYPE_ECHO_REQUEST`. -/
abbrev icmpEchoRequest : Byte := 8
/-- R8 `ICMP_TYPE_ECHO_REPLY`. -/
abbrev icmpEchoReply : Byte := 0
/-- R8 `ICMP_CODE`. -/
abbrev icmpCode : Byte := 0

/-- R9 `BUF_BASE`. -/
abbrev bufBase : Nat := 0x1000
/-- R9 `BUF_SIZE`. -/
abbrev bufSize : Nat := 4096
/-- R9 `RXWIN_BASE`. -/
abbrev rxwinBase : Nat := 0x2000
/-- R9 `RXWIN_SIZE`. -/
abbrev rxwinSize : Nat := 1514
/-- R36: the first address above the register region. -/
abbrev regEnd : Nat := 0x40
/-- R9 `IP_TX_DSCP_ECN`. -/
abbrev ipTxDscpEcn : Byte := 0x00
/-- R9 `IP_TX_IDENT`. -/
abbrev ipTxIdent : Half := 0x0000
/-- R9 `IP_TX_FLAGS_FRAG`. -/
abbrev ipTxFlagsFrag : Half := 0x0000

/-- R10 `buf_init`: what BUF holds after reset, by offset from `bufBase` (offsets 0 to 4095). The spec leaves it
open and lets a model assume nothing of it, so it has no body: a claim that mentions a byte of BUF nothing has
written holds for every content. Log entry 2. -/
opaque bufInit : Nat → Byte

end Sys2Proof.Config
end

