-- ==== Sys2Proof/Machine/State.lean ====
section
/-! DEFINITION. The state of NETBLK (spec/10_state.md R18: "the record below and nothing else"), the host port that
stands beside it in the model, the reasons a step could stop, and the state after reset (R35). -/

namespace Sys2Proof.Machine

open Sys2Proof

/-- A packet, frame, header or span: a finite byte sequence (R12, R17). -/
abbrev Bytes := List Byte

/-- R23: the seven outcomes a command can leave in STATUS. -/
inductive Status where
  | ok | noRoute | invalidPacket | timeout | empty | droppedShort | faulted
  deriving DecidableEq, Repr

/-- R114: the seven fault causes. -/
inductive FaultCode where
  | illegal | badAddr | notInit | reinit | staleView | bus | badOperand
  deriving DecidableEq, Repr

/-- R33: what the block emits on its event output port. -/
inductive Event where
  /-- ICMP_READY, from ICMP_INIT. -/
  | icmpReady
  /-- ENQUEUE(p), from every write of a packet into a slot (R79). -/
  | enqueue (p : Bytes)
  /-- CONSUME(p), from every removal of a packet (R80). -/
  | consume (p : Bytes)
  /-- ECHO_REQUEST_RX(src, id, seq, n) (R103). -/
  | echoRequestRx (src : Word) (ident seq : Half) (n : Nat)
  /-- ECHO_REPLY_RX(src, id, seq, n) (R103, R110). -/
  | echoReplyRx (src : Word) (ident seq : Half) (n : Nat)
  /-- ICMP_UNKNOWN_RX(src, t) (R103). -/
  | icmpUnknownRx (src : Word) (type : Byte)
  deriving DecidableEq, Repr

/-- R29: the checksum accumulator `A`. -/
structure Accum where
  acc : Half
  odd : Bool
  hold : Byte
  deriving DecidableEq, Repr

/-- R30: the loopback queue `Q`. Positions are numbers 0..15 and advance mod 16 (R78); the count is 0..16. -/
structure Queue where
  slot : Vector Bytes 16
  rd : Fin 16
  wr : Fin 16
  count : Fin 17
  deriving DecidableEq, Repr

/-- BUF as the bytes written since reset, by host address, addresses strictly rising. An address that is not listed reads
as the byte `buf_init` gave it (R10), which is a free value: no listed byte can be compared with it, so no
entry equals what an unlisted address reads as, and none is ever removed. Log entry 2. -/
abbrev Memory := List Host.Cell

/-- R34, R36: the host addresses of BUF. -/
abbrev inBuf (a : Nat) : Prop := Config.bufBase ≤ a ∧ a < Config.bufBase + Config.bufSize

/-- The canonical form of BUF: addresses strictly rising, all inside BUF. -/
abbrev Memory.wf (m : Memory) : Prop :=
  m.Pairwise (fun x y => x.1 < y.1) ∧ ∀ c ∈ m, inBuf c.1

/-- R18: the state of the block, field by field. -/
structure Netblk where
  /-- CMD, R22. -/
  cmd : Word
  /-- STATUS, R23. -/
  status : Word
  /-- ARG0 to ARG3, R24. -/
  arg0 : Word
  arg1 : Word
  arg2 : Word
  arg3 : Word
  /-- RES0 to RES4, R25. -/
  res0 : Word
  res1 : Word
  res2 : Word
  res3 : Word
  res4 : Word
  /-- FAULT, R26. -/
  fault : Word
  /-- The accumulator `A`, R29. -/
  csum : Accum
  /-- The queue `Q`, R30. -/
  queue : Queue
  /-- R31: the host holds a valid view of the head packet. -/
  view : Bool
  /-- R32: NET_INIT has run since reset. -/
  netReady : Bool
  /-- R33: the event trace, oldest first. -/
  events : List Event
  /-- BUF, R34. -/
  buf : Memory
  deriving DecidableEq, Repr

/-- What the host can do to the block in one step (R128): issue one 64-bit transaction (R57), or assert the reset
input (R129). -/
inductive PortInput where
  | transaction (h : Record)
  | reset
  deriving DecidableEq, Repr

/-- The block together with its host port. The two port fields are the model's own (log entry 1): the spec's step relation
takes the host's transaction as an input (R7), and a step here takes it from `pending`. -/
structure State extends Netblk where
  /-- What the host will do next, first to come first. -/
  pending : List PortInput
  /-- What the host's reads have returned, oldest first (R57, R141). -/
  readData : List Word
  deriving DecidableEq, Repr

/-- Why a step could stop the machine. There is no reason: every misuse the spec names is an outcome it describes (R113 to
R117: FAULT bits and the halted state, in which the port still answers), so no step ends in a fault. Safe. -/
inductive Fault
  deriving DecidableEq, Repr

/-- Why a step could be refused. -/
inductive Refusal where
  /-- An instruction without a meaning, named as the opcode table names it. Only a refused arm of `exec` raises it, and no
  arm is refused. Safe. -/
  | notModelled (mnemonic : String)
  deriving DecidableEq, Repr

/-- R35: the accumulator after reset. -/
def Accum.clear : Accum := { acc := 0, odd := false, hold := 0 }

/-- R35: the queue after reset. The slots' contents are unspecified and unobservable while the count is 0 (R30, U3); the
model takes empty sequences. DESIGN CHOICE, log entry 3. -/
def Queue.reset : Queue := { slot := Vector.replicate 16 [], rd := 0, wr := 0, count := 0 }

/-- R35, R129: the block after reset. BUF lists nothing: every byte of it is `buf_init`'s. -/
def Netblk.reset : Netblk :=
  { cmd := 0, status := 0, arg0 := 0, arg1 := 0, arg2 := 0, arg3 := 0,
    res0 := 0, res1 := 0, res2 := 0, res3 := 0, res4 := 0, fault := 0,
    csum := Accum.clear, queue := Queue.reset, view := false, netReady := false, events := [], buf := [] }

/-- The machine right after reset: the block as R35 says, the host about to do nothing, nothing read yet. -/
def State.reset : State :=
  { Netblk.reset with pending := [], readData := [] }

end Sys2Proof.Machine
end

