-- ==== Sys2Proof/Machine/Bytes.lean ====
section
/-! DEFINITION. Byte sequences and their big-endian fields (spec/00_scope.md R12, spec/20_memory.md R42). -/

namespace Sys2Proof.Machine

open Sys2Proof

/-- R12 `s[i]`; every use is at an index below the length. -/
def byteAt (s : Bytes) (i : Nat) : Byte := s.getD i 0

/-- R12, R42: two bytes as a 16-bit number, the first the high one. -/
def word16 (hi lo : Byte) : Half := BitVec.ofNat 16 (hi.toNat * 256 + lo.toNat)

/-- R43, R103: two 16-bit numbers as a 32-bit one, the first the high one. -/
def word32 (hi lo : Half) : Word := BitVec.ofNat 32 (hi.toNat * 65536 + lo.toNat)

/-- R12 `be16`: the byte at `i` is the high one. -/
def be16 (s : Bytes) (i : Nat) : Half := word16 (byteAt s i) (byteAt s (i + 1))

/-- R12 `be32`. -/
def be32 (s : Bytes) (i : Nat) : Word := word32 (be16 s i) (be16 s (i + 2))

/-- R12 `bytes16`. -/
def bytes16 (v : Half) : Bytes := [v.extractLsb' 8 8, v.extractLsb' 0 8]

/-- R12 `bytes32`. -/
def bytes32 (v : Word) : Bytes :=
  [v.extractLsb' 24 8, v.extractLsb' 16 8, v.extractLsb' 8 8, v.extractLsb' 0 8]

/-- R12: `s` with `s[k..k+2) <- bytes16(v)`, the assignment of R89 and R101. -/
def patch16 (s : Bytes) (k : Nat) (v : Half) : Bytes := s.take k ++ bytes16 v ++ s.drop (k + 2)

/-- R11 `zext_32` of a 16-bit value. -/
def zext32 (v : Half) : Word := v.setWidth 32

end Sys2Proof.Machine
end

