-- ==== Sys2Proof/Machine/Flags.lean ====
section
/-! DEFINITION. The codes of STATUS (R23), the bits of FAULT (R114), and the two read-only views of hidden state, CSUM_STATE
and FIFO_STATE (R27, R28). -/

namespace Sys2Proof.Machine

open Sys2Proof

/-- R23: the code each outcome writes to STATUS. -/
def Status.code : Status → Word
  | .ok => 0x00
  | .noRoute => 0x01
  | .invalidPacket => 0x02
  | .timeout => 0x03
  | .empty => 0x04
  | .droppedShort => 0x05
  | .faulted => 0x80

/-- R114: the number of a fault's bit in FAULT. -/
def FaultCode.bitNumber : FaultCode → Nat
  | .illegal => 0
  | .badAddr => 1
  | .notInit => 2
  | .reinit => 3
  | .staleView => 4
  | .bus => 5
  | .badOperand => 6

/-- R115 `1 << bit(F)`. -/
def FaultCode.mask (f : FaultCode) : Word := 1#32 <<< f.bitNumber

/-- R15 `status(c)`: the command's outcome goes to STATUS. -/
def Netblk.setStatus (b : Netblk) (c : Status) : Netblk := { b with status := c.code }

/-- R115, R116: the fault's bit is ORed into FAULT. -/
def Netblk.orFault (b : Netblk) (f : FaultCode) : Netblk := { b with fault := b.fault ||| f.mask }

/-- R117: the block is halted while FAULT is not zero. -/
def Netblk.halted (b : Netblk) : Bool := b.fault != 0

/-- R27: the value CSUM_STATE reads as: `acc` in [15:0], `hold` in [23:16], `odd` in [24]. -/
def csumState (a : Accum) : Word :=
  BitVec.ofNat 32 (a.acc.toNat + a.hold.toNat * 2 ^ 16 + a.odd.toNat * 2 ^ 24)

/-- R28: the value FIFO_STATE reads as: the count in [4:0], `rd` in [11:8], `wr` in [19:16], `view` in [24], `net_ready` in [31]. -/
def fifoState (b : Netblk) : Word :=
  BitVec.ofNat 32 (b.queue.count.val + b.queue.rd.val * 2 ^ 8 + b.queue.wr.val * 2 ^ 16 +
    b.view.toNat * 2 ^ 24 + b.netReady.toNat * 2 ^ 31)

end Sys2Proof.Machine
end

