-- ==== Sys2Proof/Machine/Operands.lean ====
section
/-! DEFINITION. What a transaction's address names (R21, R36), how BUF and RXWIN are read and written, and the operand forms
of the commands (R46 to R48, R59). -/

namespace Sys2Proof.Machine

open Sys2Proof

/-- R21: the fourteen host-visible registers. -/
inductive Reg where
  | cmd | status | arg0 | arg1 | arg2 | arg3 | res0 | res1 | res2 | res3 | res4 | fault | csumState | fifoState
  deriving DecidableEq, Repr

/-- R21: the register at an address. The reserved offsets 0x38 and 0x3C, an offset that is no multiple of 4 and an address
outside the register region name none (R38, R41). -/
def regAt (a : Addr) : Option Reg :=
  match a.toNat with
  | 0x00 => some .cmd
  | 0x04 => some .status
  | 0x08 => some .arg0
  | 0x0C => some .arg1
  | 0x10 => some .arg2
  | 0x14 => some .arg3
  | 0x18 => some .res0
  | 0x1C => some .res1
  | 0x20 => some .res2
  | 0x24 => some .res3
  | 0x28 => some .res4
  | 0x2C => some .fault
  | 0x30 => some .csumState
  | 0x34 => some .fifoState
  | _ => none

/-- R21, R38: what a register reads as. -/
def readReg (b : Netblk) : Reg → Word
  | .cmd => b.cmd
  | .status => b.status
  | .arg0 => b.arg0
  | .arg1 => b.arg1
  | .arg2 => b.arg2
  | .arg3 => b.arg3
  | .res0 => b.res0
  | .res1 => b.res1
  | .res2 => b.res2
  | .res3 => b.res3
  | .res4 => b.res4
  | .fault => b.fault
  | .csumState => Sys2Proof.Machine.csumState b.csum
  | .fifoState => Sys2Proof.Machine.fifoState b

/-- R36: the regions of the host address space. -/
inductive Region where
  | reg | buf | rxwin | unmapped
  deriving DecidableEq, Repr

/-- R36, R41: which region an address lies in. -/
def regionOf (a : Nat) : Region :=
  if a < Config.regEnd then .reg
  else if Config.bufBase ≤ a ∧ a < Config.bufBase + Config.bufSize then .buf
  else if Config.rxwinBase ≤ a ∧ a < Config.rxwinBase + Config.rxwinSize then .rxwin
  else .unmapped

/-- The byte at a BUF address, given what BUF held at reset. -/
def Memory.readWith (init : Nat → Byte) (m : Memory) (a : Nat) : Byte :=
  (m.lookup a).getD (init (a - Config.bufBase))

/-- R39: the byte at a BUF address; an address nothing has written since reset holds `buf_init`'s byte (R10). -/
def Memory.read (m : Memory) (a : Nat) : Byte := m.readWith Config.bufInit a

/-- R39: one byte of BUF is written; the canonical form is kept. -/
def Memory.write (a : Nat) (v : Byte) : Memory → Memory
  | [] => [(a, v)]
  | (x, w) :: m =>
    if a < x then (a, v) :: (x, w) :: m
    else if a = x then (a, v) :: m
    else (x, w) :: Memory.write a v m

/-- R47: the bytes of BUF at addresses `a .. a+n-1`. -/
def Memory.slice (m : Memory) (a n : Nat) : Bytes := (List.range n).map (fun i => m.read (a + i))

/-- R48: the bytes `s` stored at addresses `a`, `a+1`, ... of BUF. -/
def Memory.writeBytes (a : Nat) : Bytes → Memory → Memory
  | [], m => m
  | v :: s, m => Memory.writeBytes (a + 1) s (Memory.write a v m)

/-- R30, R40: the packet at the read position. -/
def Netblk.head (b : Netblk) : Bytes := b.queue.slot[b.queue.rd]

/-- R47 `MemRead(a, n)`: a source span, wholly in BUF or wholly inside the viewed head packet. -/
def memRead (b : Netblk) (a n : Nat) : Except FaultCode Bytes :=
  if n = 0 then .ok []
  else if Config.bufBase ≤ a ∧ a + n ≤ Config.bufBase + Config.bufSize then .ok (b.buf.slice a n)
  else if Config.rxwinBase ≤ a ∧ a < Config.rxwinBase + Config.rxwinSize then
    if b.view = false then .error .staleView
    else if a + n ≤ Config.rxwinBase + b.head.length then .ok ((b.head.drop (a - Config.rxwinBase)).take n)
    else .error .badAddr
  else .error .badAddr

/-- R48 `CheckDst(a, n)`: a destination span lies wholly in BUF. -/
def checkDst (a n : Nat) : Except FaultCode Unit :=
  if n = 0 then .ok ()
  else if Config.bufBase ≤ a ∧ a + n ≤ Config.bufBase + Config.bufSize then .ok ()
  else .error .badAddr

/-- R48 `MemWrite(a, n, s)`, after `CheckDst` has passed. -/
def memWrite (a : Nat) (s : Bytes) (b : Netblk) : Netblk := { b with buf := b.buf.writeBytes a s }

/-- R59 proto8: bits [7:0] are the protocol, bits [31:8] must be zero. -/
def proto8 (w : Word) : Except FaultCode Byte :=
  if w.extractLsb' 8 24 = 0 then .ok (w.extractLsb' 0 8) else .error .badOperand

/-- R59 idseq: the ICMP identifier, bits [31:16]. -/
def idseqIdent (w : Word) : Half := w.extractLsb' 16 16

/-- R59 idseq: the ICMP sequence number, bits [15:0]. -/
def idseqSeq (w : Word) : Half := w.extractLsb' 0 16

/-- R87 `IsLoopback`: the first octet of the address is 127. -/
def isLoopback (d : Word) : Bool := d.extractLsb' 24 8 == Config.ipLoopbackNet

end Sys2Proof.Machine
end

