-- ==== Sys2Proof/Machine/Ops.lean ====
section
/-! DEFINITION. The named operations the instructions share: emitting an event, the two queue primitives (R79, R80), taking a
fault in a command and in a host transaction (R115, R116), the common command sequence (R63), what the port returns for a
read (R57), and reset (R129). -/

namespace Sys2Proof.Machine

open Sys2Proof

/-- R15 `emit(e)`. -/
def emit (e : Event) (b : Netblk) : Netblk := { b with events := b.events ++ [e] }

/-- R79: a packet goes into the next free slot, with its event. -/
def pushPacket (p : Bytes) (b : Netblk) : Netblk :=
  emit (.enqueue p) { b with queue :=
    { b.queue with slot := b.queue.slot.set b.queue.wr p, wr := b.queue.wr + 1, count := b.queue.count + 1 } }

/-- R80: the head packet is removed, with its event. The freed slot keeps its bytes (log entry 3). -/
def popPacket (b : Netblk) : Netblk :=
  emit (.consume b.head) { b with queue := { b.queue with rd := b.queue.rd + 1, count := b.queue.count - 1 } }

/-- R79 `LbEnqueue(p)`: queue full before oversize. -/
def lbEnqueue (p : Bytes) (b : Netblk) : Netblk × Status :=
  if b.queue.count.val = Config.lbDepth then (b, .timeout)
  else if p.length > Config.lbSlotBytes then (b, .invalidPacket)
  else (pushPacket p b, .ok)

/-- R80 `LbConsume()`. -/
def lbConsume (b : Netblk) : Netblk × Status :=
  if b.queue.count = 0 then ({ b with view := false }, .empty)
  else (popPacket { b with view := false }, .ok)

/-- R63 step 3: a command that needs the device raises F_NOT_INIT before NET_INIT (R114). -/
def requireInit (b : Netblk) : Except FaultCode Unit :=
  if b.netReady then .ok () else .error .notInit

/-- R115: TAKING A FAULT IN A COMMAND. `b` is the state before the command's own effects, its word already in CMD, so everything
the command did is discarded; the bit is ORed into FAULT and STATUS becomes FAULTED. -/
def takeCommandFault (f : FaultCode) (b : Netblk) : Netblk := (b.orFault f).setStatus .faulted

/-- R116: TAKING A FAULT IN A HOST TRANSACTION. The bit is ORed into FAULT and nothing else changes. -/
def takeHostFault (f : FaultCode) (b : Netblk) : Netblk := b.orFault f

/-- R118, R129: there is no return from a fault but reset, which puts every field of the block into its reset value. BUF is
`buf_init` again (log entry 7). -/
def Netblk.takeReset (_ : Netblk) : Netblk := Netblk.reset

/-- R63: the common command sequence for the legal command word `w`. CMD is stored first; a halted block only reports
FAULTED (R117); else the command's checks and effects run, and a fault discards them (R115). -/
def commandSequence (w : Word) (body : Netblk → Except FaultCode Netblk) (b : Netblk) : Netblk :=
  let started := { b with cmd := w }
  if b.halted then started.setStatus .faulted
  else match body started with
    | .ok b' => b'
    | .error f => takeCommandFault f started

/-- R62, R63 step 1: a CMD write of an illegal word. -/
def illegalCommand (w : Word) (b : Netblk) : Netblk := commandSequence w (fun _ => .error .illegal) b

/-- The meaning of a command: the block runs it and the port returns nothing (R128). -/
def runCommand (w : Word) (body : Netblk → Except FaultCode Netblk) (s : State) : Host.Outcome State Fault Refusal :=
  .next { s with toNetblk := commandSequence w body s.toNetblk }

/-- R57: the port's answer to a read: the block after it, and the value on the read-data lines. -/
def finishRead (r : Netblk × Word) (s : State) : Host.Outcome State Fault Refusal :=
  .next { s with toNetblk := r.1, readData := s.readData ++ [r.2] }

/-- The port's answer to a write: nothing is returned (R128). -/
def finishWrite (b : Netblk) (s : State) : Host.Outcome State Fault Refusal :=
  .next { s with toNetblk := b }

/-- R57, R116: a record the port does not admit sets F_BUS; a read of such a record returns 0. -/
def rejectRecord (h : Record) (s : State) : State :=
  if isRead h then
    { s with toNetblk := takeHostFault .bus s.toNetblk, readData := s.readData ++ [0] }
  else { s with toNetblk := takeHostFault .bus s.toNetblk }

/-- R129: the reset input. The block takes its reset values; what the host has read and what it will do next are the host's
(log entry 1). -/
def resetInput (s : State) : State := { s with toNetblk := s.toNetblk.takeReset }

/-- The host's next input and the state once the port has taken it. -/
def nextInput (s : State) : Option (PortInput × State) :=
  match s.pending with
  | [] => none
  | x :: rest => some (x, { s with pending := rest })

end Sys2Proof.Machine
end

