-- ==== Sys2Proof/Machine/Checksum.lean ====
section
/-! DEFINITION. The Checksum Engine (spec/40_checksum.md): the Internet checksum as a function, the incremental
accumulator, and CSUM_CLEAR, CSUM_FEED, CSUM_FINAL, CSUM_CALC. -/

namespace Sys2Proof.Machine

open Sys2Proof

/-- R67: the sum of the 16-bit big-endian words of a sequence, an odd last byte padded with a zero low byte. -/
def wordSum : Bytes → Nat
  | [] => 0
  | [x] => x.toNat * 256
  | x :: y :: s => x.toNat * 256 + y.toNat + wordSum s

/-- R14 `fold(S)`, at most `fuel` rounds. -/
def foldRounds : Nat → Nat → Nat
  | 0, n => n
  | fuel + 1, n => if n > 0xFFFF then foldRounds fuel (n % 0x10000 + n / 0x10000) else n

/-- R14 `fold(S)`: each round lowers a sum above 0xFFFF, so `S` rounds are enough for `S`. -/
def fold (n : Nat) : Nat := foldRounds n n

/-- R67 `Checksum(s)`. -/
def checksum (s : Bytes) : Half := ~~~ BitVec.ofNat 16 (fold (wordSum s))

/-- R14: ones'-complement addition with end-around carry. -/
def onesAdd (a w : Half) : Half :=
  if a.toNat + w.toNat > 0xFFFF then BitVec.ofNat 16 (a.toNat + w.toNat - 0xFFFF)
  else BitVec.ofNat 16 (a.toNat + w.toNat)

/-- R69: one byte of the fed stream. -/
def csumByte (a : Accum) (v : Byte) : Accum :=
  if a.odd then { acc := onesAdd a.acc (word16 a.hold v), odd := false, hold := 0 }
  else { a with hold := v, odd := true }

/-- R69 `CsumFeed(A, s)`. -/
def csumFeed (a : Accum) (s : Bytes) : Accum := s.foldl csumByte a

/-- R70 `CsumFinal(A)`. -/
def csumFinal (a : Accum) : Half :=
  ~~~ (if a.odd then onesAdd a.acc (word16 a.hold 0) else a.acc)

/-- R72. -/
def csumClearBody (b : Netblk) : Except FaultCode Netblk :=
  .ok ({ b with csum := Accum.clear }.setStatus .ok)

/-- CSUM_CLEAR, R72. -/
def execCsumClear (s : State) : Host.Outcome State Fault Refusal := runCommand 0x00000010 csumClearBody s

/-- R73. -/
def csumFeedBody (b : Netblk) : Except FaultCode Netblk := do
  let s ← memRead b b.arg0.toNat b.arg1.toNat
  return { b with csum := csumFeed b.csum s }.setStatus .ok

/-- CSUM_FEED, R73. -/
def execCsumFeed (s : State) : Host.Outcome State Fault Refusal := runCommand 0x00000011 csumFeedBody s

/-- R74. -/
def csumFinalBody (b : Netblk) : Except FaultCode Netblk :=
  .ok ({ b with res0 := zext32 (csumFinal b.csum) }.setStatus .ok)

/-- CSUM_FINAL, R74. -/
def execCsumFinal (s : State) : Host.Outcome State Fault Refusal := runCommand 0x00000012 csumFinalBody s

/-- R75. -/
def csumCalcBody (b : Netblk) : Except FaultCode Netblk := do
  let s ← memRead b b.arg0.toNat b.arg1.toNat
  let a := csumFeed Accum.clear s
  return { b with csum := a, res0 := zext32 (csumFinal a) }.setStatus .ok

/-- CSUM_CALC, R75. -/
def execCsumCalc (s : State) : Host.Outcome State Fault Refusal := runCommand 0x00000013 csumCalcBody s

end Sys2Proof.Machine
end

