-- ==== Sys2Proof/Machine/Ipv4.lean ====
section
/-! DEFINITION. The IP Layer's header and send primitives (spec/42_ipv4.md R87 to R90) and its commands but for IP_PROCESS,
which dispatches to the ICMP layer and stands in Drain: NET_INIT, IP_IS_LOOPBACK, IP_BUILD_HDR, IP_PARSE_HDR, IP_SEND. -/

namespace Sys2Proof.Machine

open Sys2Proof

/-- R88, R89: the header with its checksum field zero. -/
def headerZeroed (dst : Word) (proto : Byte) (plen : Nat) : Bytes :=
  [Config.ipVerIhl, Config.ipTxDscpEcn] ++ bytes16 (BitVec.ofNat 16 (Config.ipHdrLen + plen)) ++
    bytes16 Config.ipTxIdent ++ bytes16 Config.ipTxFlagsFrag ++ [Config.ipTtl, proto, 0x00, 0x00] ++
    bytes32 Config.ipAddrLoopback ++ bytes32 dst

/-- R89 `BuildHeader(dst, proto, plen)`. -/
def buildHeader (dst : Word) (proto : Byte) (plen : Nat) : Bytes :=
  let h := headerZeroed dst proto plen
  patch16 h 10 (checksum h)

/-- R90 `IpSend(dst, proto, payload)`: route before length, length before enqueue. -/
def ipSend (dst : Word) (proto : Byte) (payload : Bytes) (b : Netblk) : Netblk × Status :=
  if isLoopback dst = false then (b, .noRoute)
  else if Config.ipHdrLen + payload.length > Config.ipMaxPacket then (b, .invalidPacket)
  else lbEnqueue (buildHeader dst proto payload.length ++ payload) b

/-- R91. -/
def netInitBody (b : Netblk) : Except FaultCode Netblk :=
  if b.netReady then .error .reinit
  else .ok ({ b with netReady := true, queue := { b.queue with rd := 0, wr := 0, count := 0 }, view := false }.setStatus .ok)

/-- NET_INIT, R91. -/
def execNetInit (s : State) : Host.Outcome State Fault Refusal := runCommand 0x00000030 netInitBody s

/-- R92. -/
def ipIsLoopbackBody (b : Netblk) : Except FaultCode Netblk :=
  .ok ({ b with res0 := if isLoopback b.arg0 then 1 else 0 }.setStatus .ok)

/-- IP_IS_LOOPBACK, R92. -/
def execIpIsLoopback (s : State) : Host.Outcome State Fault Refusal := runCommand 0x00000031 ipIsLoopbackBody s

/-- R93. -/
def ipBuildHdrBody (b : Netblk) : Except FaultCode Netblk := do
  let proto ← proto8 b.arg1
  checkDst b.arg3.toNat Config.ipHdrLen
  if Config.ipHdrLen + b.arg2.toNat > Config.ipMaxPacket then
    return b.setStatus .invalidPacket
  else
    let h := buildHeader b.arg0 proto b.arg2.toNat
    return { memWrite b.arg3.toNat h b with res0 := zext32 (be16 h 10) }.setStatus .ok

/-- IP_BUILD_HDR, R93. -/
def execIpBuildHdr (s : State) : Host.Outcome State Fault Refusal := runCommand 0x00000032 ipBuildHdrBody s

/-- R94. -/
def ipParseHdrBody (b : Netblk) : Except FaultCode Netblk := do
  let s ← memRead b b.arg0.toNat b.arg1.toNat
  if s.length < Config.ipHdrLen then
    return b.setStatus .droppedShort
  else
    return { b with res0 := be32 s 0, res1 := be32 s 4, res2 := be32 s 8, res3 := be32 s 12,
                    res4 := be32 s 16 }.setStatus .ok

/-- IP_PARSE_HDR, R94. -/
def execIpParseHdr (s : State) : Host.Outcome State Fault Refusal := runCommand 0x00000033 ipParseHdrBody s

/-- R95. -/
def ipSendBody (b : Netblk) : Except FaultCode Netblk := do
  let proto ← proto8 b.arg1
  requireInit b
  let payload ← memRead b b.arg2.toNat b.arg3.toNat
  let r := ipSend b.arg0 proto payload b
  return r.1.setStatus r.2

/-- IP_SEND, R95. -/
def execIpSend (s : State) : Host.Outcome State Fault Refusal := runCommand 0x00000034 ipSendBody s

end Sys2Proof.Machine
end

