-- ==== Sys2Proof/Machine/Icmp.lean ====
section
/-! DEFINITION. The ICMP Layer (spec/43_icmp.md): the echo frame, the send primitive, the inbound handler, and ICMP_INIT,
ICMP_BUILD_REQ, ICMP_BUILD_REP, ICMP_SEND_REQ, ICMP_SEND_REP, ICMP_HANDLE. -/

namespace Sys2Proof.Machine

open Sys2Proof

/-- R100, R101: the echo frame with its checksum field zero. -/
def echoZeroed (type : Byte) (idseq : Word) (data : Bytes) : Bytes :=
  [type, Config.icmpCode, 0x00, 0x00] ++ bytes16 (idseqIdent idseq) ++ bytes16 (idseqSeq idseq) ++ data

/-- R101 `BuildEcho(t, idseq, data)`. -/
def buildEcho (type : Byte) (idseq : Word) (data : Bytes) : Bytes :=
  let f := echoZeroed type idseq data
  patch16 f 2 (checksum f)

/-- R102 `IcmpSend(t, dst, idseq, data)`: ICMP's length test comes before IP's route test. -/
def icmpSend (type : Byte) (dst idseq : Word) (data : Bytes) (b : Netblk) : Netblk × Status :=
  if Config.icmpHdrLen + data.length > Config.icmpMaxMessage then (b, .invalidPacket)
  else ipSend dst Config.ipProtoIcmp (buildEcho type idseq data) b

/-- R103, R109: what the inbound handler did. -/
inductive Action where
  | ignored | request | reply | unknown
  deriving DecidableEq, Repr

/-- R109: the number of an action in RES0. -/
def actionCode : Action → Word
  | .ignored => 0
  | .request => 1
  | .reply => 2
  | .unknown => 3

/-- R103 `IcmpHandle(src, d)`. The code byte and the checksum are not examined. -/
def icmpHandle (src : Word) (d : Bytes) (b : Netblk) : Netblk × Action × Status :=
  if d.length < Config.icmpHdrLen then (b, .ignored, .ok)
  else
    let type := byteAt d 0
    let ident := be16 d 4
    let seq := be16 d 6
    let payload := d.drop 8
    if type = Config.icmpEchoRequest then
      let r := icmpSend Config.icmpEchoReply src (word32 ident seq) payload
        (emit (.echoRequestRx src ident seq payload.length) b)
      (r.1, .request, r.2)
    else if type = Config.icmpEchoReply then
      (emit (.echoReplyRx src ident seq payload.length) b, .reply, .ok)
    else (emit (.icmpUnknownRx src type) b, .unknown, .ok)

/-- R104. -/
def icmpInitBody (b : Netblk) : Except FaultCode Netblk := .ok ((emit .icmpReady b).setStatus .ok)

/-- ICMP_INIT, R104. -/
def execIcmpInit (s : State) : Host.Outcome State Fault Refusal := runCommand 0x00000040 icmpInitBody s

/-- R105, R106: the frame constructor, for either type. Sources are read before anything is written (R49). -/
def icmpBuildBody (type : Byte) (b : Netblk) : Except FaultCode Netblk := do
  let d ← memRead b b.arg1.toNat b.arg2.toNat
  checkDst b.arg3.toNat (Config.icmpHdrLen + b.arg2.toNat)
  if Config.icmpHdrLen + d.length > Config.icmpMaxMessage then
    return b.setStatus .invalidPacket
  else
    let f := buildEcho type b.arg0 d
    return { memWrite b.arg3.toNat f b with
      res0 := BitVec.ofNat 32 f.length, res1 := zext32 (be16 f 2) }.setStatus .ok

/-- ICMP_BUILD_REQ, R105. -/
def execIcmpBuildReq (s : State) : Host.Outcome State Fault Refusal :=
  runCommand 0x00000041 (icmpBuildBody Config.icmpEchoRequest) s

/-- ICMP_BUILD_REP, R106. -/
def execIcmpBuildRep (s : State) : Host.Outcome State Fault Refusal :=
  runCommand 0x00000042 (icmpBuildBody Config.icmpEchoReply) s

/-- R107, R108: an echo sent to ARG0, for either type. -/
def icmpSendBody (type : Byte) (b : Netblk) : Except FaultCode Netblk := do
  requireInit b
  let d ← memRead b b.arg2.toNat b.arg3.toNat
  let r := icmpSend type b.arg0 b.arg1 d b
  return r.1.setStatus r.2

/-- ICMP_SEND_REQ, R107. -/
def execIcmpSendReq (s : State) : Host.Outcome State Fault Refusal :=
  runCommand 0x00000043 (icmpSendBody Config.icmpEchoRequest) s

/-- ICMP_SEND_REP, R108. -/
def execIcmpSendRep (s : State) : Host.Outcome State Fault Refusal :=
  runCommand 0x00000044 (icmpSendBody Config.icmpEchoReply) s

/-- R109. -/
def icmpHandleBody (b : Netblk) : Except FaultCode Netblk := do
  requireInit b
  let d ← memRead b b.arg1.toNat b.arg2.toNat
  let r := icmpHandle b.arg0 d b
  return { r.1 with res0 := actionCode r.2.1, res1 := r.2.2.code }.setStatus .ok

/-- ICMP_HANDLE, R109. -/
def execIcmpHandle (s : State) : Host.Outcome State Fault Refusal := runCommand 0x00000045 icmpHandleBody s

end Sys2Proof.Machine
end

