-- ==== Sys2Proof/Machine/Drain.lean ====
section
/-! DEFINITION. IP_PROCESS (spec/42_ipv4.md R96, R97): the loop that drains the loopback queue. -/

namespace Sys2Proof.Machine

open Sys2Proof

/-- R96, one iteration: the head packet is handled while it still occupies its slot, and then removed. -/
def drainOne (b : Netblk) : Netblk :=
  let p := b.head
  let handled :=
    if p.length ≥ Config.ipHdrLen ∧ byteAt p 9 = Config.ipProtoIcmp then
      (icmpHandle (be32 p 12) (p.drop Config.ipHdrLen) b).1
    else b
  (lbConsume handled).1

/-- R96: at most `fuel` iterations, counting removals from `k`. -/
def drainLoop : Nat → Nat → Netblk → Netblk × Nat
  | 0, k, b => (b, k)
  | fuel + 1, k, b => if b.queue.count = 0 then (b, k) else drainLoop fuel (k + 1) (drainOne b)

/-- How many iterations are enough from any state, log entry 5: an iteration that answers no request lowers the count by one, and
at most 16 in a row can answer one, since the reply each writes takes the place of a request in the 16 slots. From a
state that a run reaches, R98's bound of twice the count is smaller. -/
def drainFuel (b : Netblk) : Nat := 17 * b.queue.count.val

/-- R96 `IpProcess()`: the block with its queue drained, and the number of packets removed. -/
def ipProcess (b : Netblk) : Netblk × Nat :=
  let r := drainLoop (drainFuel b) 0 b
  ({ r.1 with view := false }, r.2)

/-- R97. -/
def ipProcessBody (b : Netblk) : Except FaultCode Netblk := do
  requireInit b
  let r := ipProcess b
  return { r.1 with res0 := BitVec.ofNat 32 r.2 }.setStatus .ok

/-- IP_PROCESS, R97. -/
def execIpProcess (s : State) : Host.Outcome State Fault Refusal := runCommand 0x00000035 ipProcessBody s

end Sys2Proof.Machine
end

