-- ==== Sys2Proof/Machine/Loopback.lean ====
section
/-! DEFINITION. The Loopback Device's commands (spec/41_loopback.md): LB_SEND, LB_RECV, LB_CONSUME. The queue primitives they share
with the IP and ICMP layers stand in Ops. -/

namespace Sys2Proof.Machine

open Sys2Proof

/-- R82. -/
def lbSendBody (b : Netblk) : Except FaultCode Netblk := do
  requireInit b
  let p ← memRead b b.arg0.toNat b.arg1.toNat
  let r := lbEnqueue p b
  return r.1.setStatus r.2

/-- LB_SEND, R82. -/
def execLbSend (s : State) : Host.Outcome State Fault Refusal := runCommand 0x00000020 lbSendBody s

/-- R83. -/
def lbRecvBody (b : Netblk) : Except FaultCode Netblk := do
  requireInit b
  if b.queue.count = 0 then
    return { b with view := false, res0 := 0 }.setStatus .empty
  else
    return { b with view := true, res0 := BitVec.ofNat 32 b.head.length }.setStatus .ok

/-- LB_RECV, R83. -/
def execLbRecv (s : State) : Host.Outcome State Fault Refusal := runCommand 0x00000021 lbRecvBody s

/-- R84. -/
def lbConsumeBody (b : Netblk) : Except FaultCode Netblk := do
  requireInit b
  let r := lbConsume b
  return r.1.setStatus r.2

/-- LB_CONSUME, R84. -/
def execLbConsume (s : State) : Host.Outcome State Fault Refusal := runCommand 0x00000022 lbConsumeBody s

end Sys2Proof.Machine
end

