-- ==== Sys2Proof/Machine/HostPort.lean ====
section
/-! DEFINITION. The four host transactions (spec/20_memory.md R37 to R41): RD8, WR8, RD32, WR32, the last of which starts the
commands (R22). They act alike whether or not the block is halted (R117). -/

namespace Sys2Proof.Machine

open Sys2Proof

/-- A read that is not admitted: F_BUS, and it returns 0 (R37, R116). -/
def busFaultRead (b : Netblk) : Netblk × Word := (takeHostFault .bus b, 0)

/-- R39, R40, R38, R41: one byte read. -/
def readByte (b : Netblk) (a : Nat) : Netblk × Word :=
  match regionOf a with
  | .buf => (b, (b.buf.read a).setWidth 32)
  | .rxwin =>
    if b.view = false then (takeHostFault .staleView b, 0)
    else if a - Config.rxwinBase ≥ b.head.length then busFaultRead b
    else (b, (byteAt b.head (a - Config.rxwinBase)).setWidth 32)
  | .reg | .unmapped => busFaultRead b

/-- RD8, R37. -/
def execRd8 (a : Addr) (s : State) : Host.Outcome State Fault Refusal :=
  finishRead (readByte s.toNetblk a.toNat) s

/-- R39, R40, R38, R41: one byte written. -/
def writeByte (a : Nat) (v : Byte) (b : Netblk) : Netblk :=
  match regionOf a with
  | .buf => { b with buf := b.buf.write a v }
  | .reg | .rxwin | .unmapped => takeHostFault .bus b

/-- WR8, R37. -/
def execWr8 (a : Addr) (v : Byte) (s : State) : Host.Outcome State Fault Refusal :=
  finishWrite (writeByte a.toNat v s.toNetblk) s

/-- R38: one register read. -/
def readWord (b : Netblk) (a : Addr) : Netblk × Word :=
  match regAt a with
  | some r => (b, readReg b r)
  | none => busFaultRead b

/-- RD32, R37. -/
def execRd32 (a : Addr) (s : State) : Host.Outcome State Fault Refusal :=
  finishRead (readWord s.toNetblk a) s

/-- R22, R63: the host writes `w` to CMD. A legal word runs its command; any other raises F_ILLEGAL. -/
def startCommand (w : Word) (s : State) : Host.Outcome State Fault Refusal :=
  match decodeCommand w with
  | some .csumClear => execCsumClear s
  | some .csumFeed => execCsumFeed s
  | some .csumFinal => execCsumFinal s
  | some .csumCalc => execCsumCalc s
  | some .lbSend => execLbSend s
  | some .lbRecv => execLbRecv s
  | some .lbConsume => execLbConsume s
  | some .netInit => execNetInit s
  | some .ipIsLoopback => execIpIsLoopback s
  | some .ipBuildHdr => execIpBuildHdr s
  | some .ipParseHdr => execIpParseHdr s
  | some .ipSend => execIpSend s
  | some .ipProcess => execIpProcess s
  | some .icmpInit => execIcmpInit s
  | some .icmpBuildReq => execIcmpBuildReq s
  | some .icmpBuildRep => execIcmpBuildRep s
  | some .icmpSendReq => execIcmpSendReq s
  | some .icmpSendRep => execIcmpSendRep s
  | some .icmpHandle => execIcmpHandle s
  | none | some (.rd8 _) | some (.wr8 _ _) | some (.rd32 _) | some (.wr32 _ _) =>
    finishWrite (illegalCommand w s.toNetblk) s

/-- R38: one register other than CMD written. -/
def writeWord (r : Option Reg) (v : Word) (b : Netblk) : Netblk :=
  match r with
  | some .arg0 => { b with arg0 := v }
  | some .arg1 => { b with arg1 := v }
  | some .arg2 => { b with arg2 := v }
  | some .arg3 => { b with arg3 := v }
  | _ => takeHostFault .bus b

/-- WR32, R37, R38. -/
def execWr32 (a : Addr) (v : Word) (s : State) : Host.Outcome State Fault Refusal :=
  if regAt a = some .cmd then startCommand v s
  else finishWrite (writeWord (regAt a) v s.toNetblk) s

end Sys2Proof.Machine
end

