-- ==== Sys2Proof/Machine/Dispatch.lean ====
section
/-! DEFINITION. The one match from an instruction to its meaning. -/

namespace Sys2Proof.Machine

open Sys2Proof

def exec (i : Instr) (s : State) : Host.Outcome State Fault Refusal :=
  match i with
  | .csumClear => Sys2Proof.Machine.execCsumClear s
  | .csumFeed => Sys2Proof.Machine.execCsumFeed s
  | .csumFinal => Sys2Proof.Machine.execCsumFinal s
  | .csumCalc => Sys2Proof.Machine.execCsumCalc s
  | .lbSend => Sys2Proof.Machine.execLbSend s
  | .lbRecv => Sys2Proof.Machine.execLbRecv s
  | .lbConsume => Sys2Proof.Machine.execLbConsume s
  | .netInit => Sys2Proof.Machine.execNetInit s
  | .ipIsLoopback => Sys2Proof.Machine.execIpIsLoopback s
  | .ipBuildHdr => Sys2Proof.Machine.execIpBuildHdr s
  | .ipParseHdr => Sys2Proof.Machine.execIpParseHdr s
  | .ipSend => Sys2Proof.Machine.execIpSend s
  | .ipProcess => Sys2Proof.Machine.execIpProcess s
  | .icmpInit => Sys2Proof.Machine.execIcmpInit s
  | .icmpBuildReq => Sys2Proof.Machine.execIcmpBuildReq s
  | .icmpBuildRep => Sys2Proof.Machine.execIcmpBuildRep s
  | .icmpSendReq => Sys2Proof.Machine.execIcmpSendReq s
  | .icmpSendRep => Sys2Proof.Machine.execIcmpSendRep s
  | .icmpHandle => Sys2Proof.Machine.execIcmpHandle s
  | .rd8 a => Sys2Proof.Machine.execRd8 a s
  | .wr8 a v => Sys2Proof.Machine.execWr8 a v s
  | .rd32 a => Sys2Proof.Machine.execRd32 a s
  | .wr32 a v => Sys2Proof.Machine.execWr32 a v s

end Sys2Proof.Machine
end

