-- ==== Sys2Proof/Machine/Step.lean ====
section
/-! DEFINITION. One step: the port takes the host's next input (R7, R37, R128) and the block performs all of it. -/

namespace Sys2Proof.Machine

open Sys2Proof

/-- With no input pending the block is idle and keeps all state (R127, R128). The reset input resets it (R129). A transaction
is decoded (R57): an admitted one runs, with the command it may start (R63), and any other is a host bus fault (R116). -/
def step (s : State) : Host.Outcome State Fault Refusal :=
  match nextInput s with
  | none => .next s
  | some (.reset, t) => .next (resetInput t)
  | some (.transaction h, t) =>
    match decode h with
    | .ok i => exec i t
    | .error _ => .next (rejectRecord h t)

/-- `s` with the row's bits `w` as the host's next transaction: this is where the next instruction comes from (log
entries 1 and 4). -/
def State.withFetchWord (s : State) (nbits w : Nat) : State :=
  { s with pending := .transaction (portRecord nbits w) :: s.pending }

end Sys2Proof.Machine
end

