-- ==== Sys2Proof/Machine/HostProgram.lean ====
section
/-! DEFINITION. Host programs (spec/30_encoding.md R65, R66): the lines of the host assembly, the transactions each stands for, and
a run of one from reset (R141). Nothing of this is state of the block; it is how a program comes to the port. -/

namespace Sys2Proof.Machine

open Sys2Proof

/-- R65, R66: one line of a host program, its numbers already read. -/
inductive HostLine where
  | rd8 (a : Addr)
  | wr8 (a : Addr) (v : Byte)
  | rd32 (a : Addr)
  | wr32 (a : Addr) (v : Word)
  /-- `cmd <MNEMONIC>`. -/
  | cmd (i : Instr)
  /-- `<MNEMONIC> v0, ..., vk`, k at most 3. -/
  | op (i : Instr) (vs : List Word)
  | bytes (a : Addr) (vs : Bytes)
  | fill (a : Addr) (n : Nat) (v : Byte)
  /-- `expect`: an assertion, no transaction (R65). -/
  | expect (a : Addr) (v : Word)
  deriving DecidableEq, Repr

/-- R66 `ip(a,b,c,d)`. -/
def ipAddr (a b c d : Byte) : Word := word32 (word16 a b) (word16 c d)

/-- R66 `idseq(id, seq)`. -/
def idseqOf (ident seq : Half) : Word := word32 ident seq

/-- R21: the addresses of ARG0 to ARG3. -/
def argAddrs : List Addr := [0x08, 0x0C, 0x10, 0x14]

/-- R66: `wr8 a, v0`, `wr8 a+1, v1`, ... An address past 0xFFFF is no address; the sum is kept to 16 bits (log entry 6). -/
def writeBytesRecords (a : Addr) : Bytes → List Record
  | [] => []
  | v :: vs => encode (.wr8 a v) :: writeBytesRecords (a + 1) vs

/-- R66 `cmd <MNEMONIC>`: `wr32 CMD, <opcode>`. -/
def commandRecords (i : Instr) : List Record :=
  match commandWord i with
  | some w => [record 0b11 0 w]
  | none => []

/-- R65, R66: the transactions a line stands for, in order. -/
def HostLine.records : HostLine → List Record
  | .rd8 a => [encode (.rd8 a)]
  | .wr8 a v => [encode (.wr8 a v)]
  | .rd32 a => [encode (.rd32 a)]
  | .wr32 a v => [encode (.wr32 a v)]
  | .cmd i => commandRecords i
  | .op i vs => List.zipWith (fun a v => encode (.wr32 a v)) argAddrs vs ++ commandRecords i
  | .bytes a vs => writeBytesRecords a vs
  | .fill a n v => writeBytesRecords a (List.replicate n v)
  | .expect _ _ => []

/-- R141: the inputs a host program gives the port. -/
def programInputs (p : List HostLine) : List PortInput :=
  (p.flatMap HostLine.records).map .transaction

/-- A state whose host is about to run `p`. -/
def State.withProgram (s : State) (p : List HostLine) : State := { s with pending := programInputs p }

/-- R141: the end of a run of `p` from reset, every one of its transactions taken. -/
def runProgram (p : List HostLine) : Host.Outcome State Fault Refusal :=
  Host.Core.run Sys2Proof.core (programInputs p).length (State.reset.withProgram p)

end Sys2Proof.Machine
end

