-- ==== Sys2Proof/Safety.lean ====
section
/-! DEFINITION. What counts as a good run (R141), what the block's state always satisfies (R18, R23, R26, R29, R30, R31), and the
trace's account of the queue (R33, R85), in the terms the statements use. -/

namespace Sys2Proof.Machine

open Sys2Proof

/-- R141: a run is good when its final FAULT is 0. -/
def Good (o : Host.Outcome State Fault Refusal) : Prop :=
  match o with
  | .next s => s.fault = 0
  | .fault _ => False
  | .refused _ => False

/-- R30: the queued packets, oldest first. -/
def queued (b : Netblk) : List Bytes :=
  (List.range b.queue.count.val).map (fun k => b.queue.slot[(b.queue.rd.val + k) % 16]'(Nat.mod_lt _ (by decide)))

/-- What the rules say of every state of the block that a run reaches. -/
structure Inv (b : Netblk) : Prop where
  /-- R30: no slot holds more than 1514 bytes. -/
  slots_bounded : ∀ i : Fin 16, b.queue.slot[i].length ≤ Config.lbSlotBytes
  /-- R30: the write position is the read position plus the count, mod 16. -/
  ring : b.queue.wr.val = (b.queue.rd.val + b.queue.count.val) % 16
  /-- R31: a view is a view of a packet. -/
  view_has_packet : b.view = true → 1 ≤ b.queue.count.val
  /-- R32, R114: before NET_INIT the queue is empty. -/
  ready_or_empty : b.netReady = false → b.queue.count.val = 0
  /-- R29: no byte is held when none is pending. -/
  hold_clear : b.csum.odd = false → b.csum.hold = 0
  /-- R23: STATUS holds one of its seven codes. -/
  status_legal : ∃ c : Status, b.status = c.code
  /-- R26: FAULT[31:7] is zero. -/
  fault_bits : b.fault.extractLsb' 7 25 = 0
  /-- R115, R117: FAULTED is reported only by a block that has a fault. -/
  faulted_has_fault : b.status = Status.faulted.code → b.fault ≠ 0
  /-- BUF keeps its canonical form (log entry 2). -/
  buf_wf : b.buf.wf

/-- R33: the packets a trace says were written into slots, in order. -/
def enqueuedIn (t : List Event) : List Bytes :=
  t.filterMap (fun e => match e with | .enqueue p => some p | _ => none)

/-- R33: the packets a trace says were removed, in order. -/
def consumedIn (t : List Event) : List Bytes :=
  t.filterMap (fun e => match e with | .consume p => some p | _ => none)

/-- R85: what was enqueued is what was consumed followed by what is queued, all in order. -/
def TraceAgrees (b : Netblk) : Prop := enqueuedIn b.events = consumedIn b.events ++ queued b

/-- R22, R66: the command an instruction starts, if any: a command itself, or the one a WR32 to CMD names. -/
def startedCommand : Instr → Option Instr
  | .wr32 a v => if a = 0 then decodeCommand v else none
  | .rd8 _ | .wr8 _ _ | .rd32 _ => none
  | i => some i

/-- R115: what a command fault leaves of the state it met. -/
def State.faulted (s : State) (w : Word) (f : FaultCode) : State :=
  { s with cmd := w, fault := s.fault ||| f.mask, status := 0x80 }

/-- R117: what a CMD write leaves of a halted block. -/
def State.reportsHalted (s : State) (w : Word) : State := { s with cmd := w, status := 0x80 }

/-- R116: what a write that is not admitted leaves. -/
def State.busFaulted (s : State) : State := { s with fault := s.fault ||| 0x20 }

/-- R57: the host has read `v` and nothing else has changed. -/
def State.returned (s : State) (v : Word) : State := { s with readData := s.readData ++ [v] }

/-- A command that ended with status code `c` and did nothing else. -/
def State.ended (s : State) (w c : Word) : State := { s with cmd := w, status := c }

/-- R79: the command `w` offered packet `p` to the queue. -/
def State.sends (s : State) (w : Word) (p : Bytes) : State :=
  if s.queue.count.val = 16 then s.ended w 0x03
  else if p.length > 1514 then s.ended w 0x02
  else { s with
    cmd := w, status := 0x00, events := s.events ++ [.enqueue p],
    queue := { slot := s.queue.slot.set s.queue.wr p, rd := s.queue.rd, wr := s.queue.wr + 1, count := s.queue.count + 1 } }

/-- R90: the command `w` sent an IPv4 packet. -/
def State.ipSends (s : State) (w dst : Word) (proto : Byte) (payload : Bytes) : State :=
  if dst.extractLsb' 24 8 ≠ 127 then s.ended w 0x01
  else if 20 + payload.length > 1500 then s.ended w 0x02
  else s.sends w (buildHeader dst proto payload.length ++ payload)

/-- R102: the command `w` sent an ICMP echo frame. -/
def State.icmpSends (s : State) (w : Word) (type : Byte) (dst idseq : Word) (data : Bytes) : State :=
  if 8 + data.length > 1480 then s.ended w 0x02
  else s.ipSends w dst 1 (buildEcho type idseq data)

end Sys2Proof.Machine
end

