-- ==== Sys2Proof/Certificates/Slice0/Obligations.lean ====
section
/-! DEFINITION. The statements for the provers, in the order of spec/'s rules: encoding, the step and reset, the host's
transactions, spans, the Checksum Engine, the Loopback Device, the IP Layer, the ICMP Layer, faults. -/

open Sys2Proof Sys2Proof.Machine

/-! ## Encoding -/

/-- R57, R58, R60: decoding the record of a well-formed instruction gives it back, with every field at every value. -/
def Obligations.DecodeEncodeRoundTrip : Prop :=
  ∀ i : Instr, WellFormed i = true → decode (encode i) = .ok i

/-- R57: a record that decodes is the record of what it decodes to, which is well formed: no bit of it is dropped. -/
def Obligations.EncodeDecodeRoundTrip : Prop :=
  ∀ (h : Record) (i : Instr), decode h = .ok i → WellFormed i = true ∧ encode i = h

/-- Vectors EN-1, EN-6, EN-13, EN-19 to EN-23, EN-26: words of each family, as the spec writes them out. -/
def Obligations.SpecWordsDecode : Prop :=
  decode 0x0000001000000003 = .ok .csumClear ∧
  decode 0x0000002100000003 = .ok .lbRecv ∧
  decode 0x0000003500000003 = .ok .ipProcess ∧
  decode 0x0000004500000003 = .ok .icmpHandle ∧
  decode 0x0000000010000000 = .ok (.rd8 0x1000) ∧
  decode 0x0000005A10000001 = .ok (.wr8 0x1000 0x5A) ∧
  decode 0x0000000000040002 = .ok (.rd32 0x0004) ∧
  decode 0x7F00000100080003 = .ok (.wr32 0x0008 0x7F000001) ∧
  decode 0x0000000025E90000 = .ok (.rd8 0x25E9)

/-- R60, R62: a command word is legal exactly when it is one of the nineteen of the opcode map, and each is its command's
own. -/
def Obligations.LegalCommandWords : Prop :=
  (∀ w : Word, (decodeCommand w).isSome = true ↔ w ∈ legalCommandWords) ∧
  (∀ (w : Word) (i : Instr), decodeCommand w = some i ↔ commandWord i = some w)

/-- R57: the fields of a transaction, what is no transaction, and what a read returns. That the step takes the record from
`pending` and puts what a read returns into `readData` is the model's choice (log entry 1). -/
def Obligations.HostTransactionFormat : Prop :=
  (∀ (s : State) (h : Record) (rest : List PortInput), s.pending = .transaction h :: rest →
    (h.extractLsb' 2 14 ≠ 0 ∨ (h.extractLsb' 0 1 = 0 ∧ h.extractLsb' 32 32 ≠ 0) ∨
        (h.extractLsb' 0 2 = 1 ∧ h.extractLsb' 40 24 ≠ 0) →
      step s = .next (if h.extractLsb' 0 1 = 0 then ({ s with pending := rest }.busFaulted.returned 0)
        else { s with pending := rest }.busFaulted)) ∧
    (h.extractLsb' 2 14 = 0 →
      (h.extractLsb' 0 2 = 0 → h.extractLsb' 32 32 = 0 →
        step s = exec (.rd8 (h.extractLsb' 16 16)) { s with pending := rest }) ∧
      (h.extractLsb' 0 2 = 1 → h.extractLsb' 40 24 = 0 →
        step s = exec (.wr8 (h.extractLsb' 16 16) (h.extractLsb' 32 8)) { s with pending := rest }) ∧
      (h.extractLsb' 0 2 = 2 → h.extractLsb' 32 32 = 0 →
        step s = exec (.rd32 (h.extractLsb' 16 16)) { s with pending := rest }) ∧
      (h.extractLsb' 0 2 = 3 →
        step s = exec (.wr32 (h.extractLsb' 16 16) (h.extractLsb' 32 32)) { s with pending := rest }))) ∧
  (∀ (a : Addr) (s t : State), exec (.rd8 a) s = .next t → ∃ v : Byte, t.readData = s.readData ++ [v.setWidth 32]) ∧
  (∀ (a : Addr) (s t : State), exec (.rd32 a) s = .next t → ∃ v : Word, t.readData = s.readData ++ [v])

/-! ## The step, reset and the invariants -/

/-- R7, R37: a step takes the host's next transaction and runs what it decodes to. That it stands in `pending` is the model's
choice (log entry 1). -/
def Obligations.StepRunsDecodedInstruction : Prop :=
  ∀ (s : State) (h : Record) (rest : List PortInput) (i : Instr), s.pending = .transaction h :: rest →
    decode h = .ok i → WellFormed i = true → step s = exec i { s with pending := rest }

/-- R127, R128, R129: idle without an input; the reset input puts every field of the block into its reset value. That the host's
own lists stay, and that the slots are empty sequences, is the model's choice (log entries 1 and 3). -/
def Obligations.IdleAndResetInput : Prop :=
  (∀ s : State, s.pending = [] → step s = .next s) ∧
  (∀ (s : State) (rest : List PortInput), s.pending = .reset :: rest →
    step s = .next { State.reset with pending := rest, readData := s.readData })

/-- R35: every field after reset; BUF holds `buf_init`, of which nothing is assumed. -/
def Obligations.ResetValues : Prop :=
  State.reset.cmd = 0 ∧ State.reset.status = 0 ∧
  State.reset.arg0 = 0 ∧ State.reset.arg1 = 0 ∧ State.reset.arg2 = 0 ∧ State.reset.arg3 = 0 ∧
  State.reset.res0 = 0 ∧ State.reset.res1 = 0 ∧ State.reset.res2 = 0 ∧ State.reset.res3 = 0 ∧ State.reset.res4 = 0 ∧
  State.reset.fault = 0 ∧
  State.reset.csum.acc = 0 ∧ State.reset.csum.odd = false ∧ State.reset.csum.hold = 0 ∧
  State.reset.queue.rd = 0 ∧ State.reset.queue.wr = 0 ∧ State.reset.queue.count = 0 ∧
  State.reset.view = false ∧ State.reset.netReady = false ∧ State.reset.events = [] ∧
  (∀ i : Nat, i < 4096 → State.reset.buf.read (0x1000 + i) = Config.bufInit i)

/-- The reset state has the invariants that every step keeps. -/
def Obligations.ResetHasInvariants : Prop :=
  Inv State.reset.toNetblk ∧ TraceAgrees State.reset.toNetblk

/-- R23, R26, R29, R30, R31 and BUF's canonical form: every step from a state that has the invariant leads to one that
has it, whatever the host does. -/
def Obligations.StepKeepsInvariant : Prop :=
  ∀ s t : State, Inv s.toNetblk → step s = .next t → Inv t.toNetblk

/-- R85 over every step: what the trace says was enqueued is what it says was consumed, followed by what is
queued, all in order. -/
def Obligations.StepKeepsFifoTrace : Prop :=
  ∀ s t : State, Inv s.toNetblk → TraceAgrees s.toNetblk → step s = .next t → TraceAgrees t.toNetblk

/-- R113, R117, R128: nothing the host sends stops the machine; every misuse is an outcome the spec describes. -/
def Obligations.EveryStepAnswersNext : Prop :=
  (∀ s : State, ∃ t, step s = .next t) ∧ (∀ (i : Instr) (s : State), ∃ t, exec i s = .next t)

/-- R33: nothing removes from the event trace, but reset. -/
def Obligations.EventsOnlyGrow : Prop :=
  ∀ s t : State, (∀ rest, s.pending ≠ .reset :: rest) → step s = .next t → ∃ es, t.events = s.events ++ es

/-! ## The host's transactions -/

/-- R22: CMD keeps the last word written, legal or not, and a legal word runs its command. -/
def Obligations.CommandWriteRunsCommand : Prop :=
  (∀ (w : Word) (s : State), ∃ t, exec (.wr32 0x00 w) s = .next t ∧ t.cmd = w ∧
    exec (.rd32 0x00) t = .next (t.returned w)) ∧
  (∀ (i : Instr) (w : Word) (s : State), commandWord i = some w → exec (.wr32 0x00 w) s = exec i s) ∧
  (∀ (i : Instr) (s t : State), exec i s = .next t → t.cmd ≠ s.cmd →
    commandWord i = some t.cmd ∨ i = .wr32 0x00 t.cmd) ∧
  exec (.rd32 0x00) State.reset = .next (State.reset.returned 0)

/-- R38: the register region, for each kind of transaction and each offset. -/
def Obligations.RegisterRegion : Prop :=
  ∀ s : State,
    (exec (.rd32 0x00) s = .next (s.returned s.cmd) ∧ exec (.rd32 0x04) s = .next (s.returned s.status) ∧
      exec (.rd32 0x08) s = .next (s.returned s.arg0) ∧ exec (.rd32 0x0C) s = .next (s.returned s.arg1) ∧
      exec (.rd32 0x10) s = .next (s.returned s.arg2) ∧ exec (.rd32 0x14) s = .next (s.returned s.arg3) ∧
      exec (.rd32 0x18) s = .next (s.returned s.res0) ∧ exec (.rd32 0x1C) s = .next (s.returned s.res1) ∧
      exec (.rd32 0x20) s = .next (s.returned s.res2) ∧ exec (.rd32 0x24) s = .next (s.returned s.res3) ∧
      exec (.rd32 0x28) s = .next (s.returned s.res4) ∧ exec (.rd32 0x2C) s = .next (s.returned s.fault) ∧
      exec (.rd32 0x30) s = .next (s.returned (csumState s.csum)) ∧
      exec (.rd32 0x34) s = .next (s.returned (fifoState s.toNetblk))) ∧
    (∀ v : Word,
      exec (.wr32 0x08 v) s = .next { s with arg0 := v } ∧ exec (.wr32 0x0C v) s = .next { s with arg1 := v } ∧
      exec (.wr32 0x10 v) s = .next { s with arg2 := v } ∧ exec (.wr32 0x14 v) s = .next { s with arg3 := v }) ∧
    (∀ (w : Word) (c : Instr), decodeCommand w = some c → exec (.wr32 0x00 w) s = exec c s) ∧
    (∀ (a : Addr) (v : Word), a ∈ [0x04, 0x18, 0x1C, 0x20, 0x24, 0x28, 0x2C, 0x30, 0x34] →
      exec (.wr32 a v) s = .next s.busFaulted) ∧
    (∀ (a : Addr) (v : Word), a = 0x38 ∨ a = 0x3C →
      exec (.wr32 a v) s = .next s.busFaulted ∧ exec (.rd32 a) s = .next (s.busFaulted.returned 0)) ∧
    (∀ (a : Addr) (v : Byte), a.toNat < 0x40 →
      exec (.rd8 a) s = .next (s.busFaulted.returned 0) ∧ exec (.wr8 a v) s = .next s.busFaulted) ∧
    (∀ (a : Addr) (v : Word), a.toNat < 0x40 → a.toNat % 4 ≠ 0 →
      exec (.rd32 a) s = .next (s.busFaulted.returned 0) ∧ exec (.wr32 a v) s = .next s.busFaulted)

/-- R39: BUF is read and written byte by byte, with no other effect; RD32 and WR32 there are bus faults. -/
def Obligations.BufRegion : Prop :=
  ∀ (s : State) (a : Addr), 0x1000 ≤ a.toNat → a.toNat ≤ 0x1FFF →
    exec (.rd8 a) s = .next (s.returned ((s.buf.read a.toNat).setWidth 32)) ∧
    (∀ v : Byte, ∃ m : Memory, exec (.wr8 a v) s = .next { s with buf := m } ∧
      m.read a.toNat = v ∧ ∀ x, x ≠ a.toNat → m.read x = s.buf.read x) ∧
    exec (.rd32 a) s = .next (s.busFaulted.returned 0) ∧
    (∀ v : Word, exec (.wr32 a v) s = .next s.busFaulted)

/-- R40: the window on the head packet: a stale view faults first, then an offset past the packet. -/
def Obligations.RxwinRegion : Prop :=
  ∀ (s : State) (a : Addr) (i : Nat), a.toNat = 0x2000 + i → i < 1514 →
    (s.view = false → exec (.rd8 a) s = .next ({ s with fault := s.fault ||| 0x10 }.returned 0)) ∧
    (s.view = true → s.queue.slot[s.queue.rd].length ≤ i → exec (.rd8 a) s = .next (s.busFaulted.returned 0)) ∧
    (∀ h : i < s.queue.slot[s.queue.rd].length, s.view = true →
      exec (.rd8 a) s = .next (s.returned ((s.queue.slot[s.queue.rd][i]'h).setWidth 32))) ∧
    (∀ v : Byte, exec (.wr8 a v) s = .next s.busFaulted) ∧
    exec (.rd32 a) s = .next (s.busFaulted.returned 0) ∧
    (∀ v : Word, exec (.wr32 a v) s = .next s.busFaulted)

/-- R41: any transaction outside the three regions is a bus fault. -/
def Obligations.UnmappedRegion : Prop :=
  ∀ (s : State) (a : Addr), (0x0040 ≤ a.toNat ∧ a.toNat ≤ 0x0FFF) ∨ 0x25EA ≤ a.toNat →
    exec (.rd8 a) s = .next (s.busFaulted.returned 0) ∧ exec (.rd32 a) s = .next (s.busFaulted.returned 0) ∧
    (∀ v : Byte, exec (.wr8 a v) s = .next s.busFaulted) ∧ (∀ v : Word, exec (.wr32 a v) s = .next s.busFaulted)

/-- R27, R28: the bits of the two views, and that reading them changes nothing. -/
def Obligations.HiddenStateViews : Prop :=
  ∀ s : State,
    (∃ v : Word, exec (.rd32 0x30) s = .next (s.returned v) ∧ v.extractLsb' 0 16 = s.csum.acc ∧
      v.extractLsb' 16 8 = s.csum.hold ∧ v.getLsbD 24 = s.csum.odd ∧ v.extractLsb' 25 7 = 0) ∧
    (∃ v : Word, exec (.rd32 0x34) s = .next (s.returned v) ∧ (v.extractLsb' 0 5).toNat = s.queue.count.val ∧
      v.extractLsb' 5 3 = 0 ∧ (v.extractLsb' 8 4).toNat = s.queue.rd.val ∧ v.extractLsb' 12 4 = 0 ∧
      (v.extractLsb' 16 4).toNat = s.queue.wr.val ∧ v.extractLsb' 20 4 = 0 ∧ v.getLsbD 24 = s.view ∧
      v.extractLsb' 25 6 = 0 ∧ v.getLsbD 31 = s.netReady)

/-- R24, R25, R19: an ARG register changes only by the host's write of it, a RES register only by a command, STATUS only by a
CMD write. -/
def Obligations.WhoWritesRegisters : Prop :=
  ∀ (i : Instr) (s t : State), exec i s = .next t →
    (t.arg0 ≠ s.arg0 → i = .wr32 0x08 t.arg0) ∧ (t.arg1 ≠ s.arg1 → i = .wr32 0x0C t.arg1) ∧
    (t.arg2 ≠ s.arg2 → i = .wr32 0x10 t.arg2) ∧ (t.arg3 ≠ s.arg3 → i = .wr32 0x14 t.arg3) ∧
    (startedCommand i = none →
      t.res0 = s.res0 ∧ t.res1 = s.res1 ∧ t.res2 = s.res2 ∧ t.res3 = s.res3 ∧ t.res4 = s.res4 ∧
      ((∀ w, i ≠ .wr32 0x00 w) → t.status = s.status))

/-! ## Spans -/

/-- R47: `MemRead`, for every start and length: the empty span, BUF, the viewed head packet, and the faults. -/
def Obligations.SourceSpans : Prop :=
  ∀ (b : Netblk) (a n : Nat),
    (n = 0 → memRead b a n = .ok []) ∧
    (n ≠ 0 → 0x1000 ≤ a → a + n ≤ 0x2000 → ∃ d, memRead b a n = .ok d ∧ d.length = n ∧
      ∀ (i : Nat) (h : i < d.length), d[i] = b.buf.read (a + i)) ∧
    (n ≠ 0 → 0x2000 ≤ a → a < 0x2000 + 1514 → b.view = false → memRead b a n = .error .staleView) ∧
    (n ≠ 0 → 0x2000 ≤ a → a < 0x2000 + 1514 → b.view = true → a + n ≤ 0x2000 + b.queue.slot[b.queue.rd].length →
      ∃ d, memRead b a n = .ok d ∧ d.length = n ∧
        ∀ (i : Nat) (h : i < d.length), some d[i] = b.queue.slot[b.queue.rd][a - 0x2000 + i]?) ∧
    (n ≠ 0 → 0x2000 ≤ a → a < 0x2000 + 1514 → b.view = true → 0x2000 + b.queue.slot[b.queue.rd].length < a + n →
      memRead b a n = .error .badAddr) ∧
    (n ≠ 0 → a < 0x1000 ∨ (a < 0x2000 ∧ 0x2000 < a + n) ∨ 0x2000 + 1514 ≤ a → memRead b a n = .error .badAddr)

/-- R48: `CheckDst` and `MemWrite`: the span lies in BUF, its bytes are stored, and every other byte stays. -/
def Obligations.DestinationSpans : Prop :=
  (∀ a n : Nat, (n = 0 ∨ (0x1000 ≤ a ∧ a + n ≤ 0x2000) → checkDst a n = .ok ()) ∧
    (n ≠ 0 → ¬ (0x1000 ≤ a ∧ a + n ≤ 0x2000) → checkDst a n = .error .badAddr)) ∧
  (∀ (b : Netblk) (a : Nat) (d : Bytes), ∃ m : Memory, memWrite a d b = { b with buf := m } ∧
    (∀ (i : Nat) (h : i < d.length), m.read (a + i) = d[i]) ∧
    (∀ x, x < a ∨ a + d.length ≤ x → m.read x = b.buf.read x))

/-! ## The Checksum Engine -/

/-- R67: the sum of the words, its fold to the one residue in 1..0xFFFF (0 for 0), the complement, and the corner
cases. -/
def Obligations.ChecksumFunction : Prop :=
  (∀ s : Bytes, wordSum s =
    ((List.range (s.length / 2)).map (fun k => (be16 s (2 * k)).toNat)).sum +
      (if s.length % 2 = 1 then (byteAt s (s.length - 1)).toNat * 256 else 0)) ∧
  (∀ s : Bytes, (checksum s).toNat =
    0xFFFF - (if wordSum s = 0 then 0 else (wordSum s - 1) % 0xFFFF + 1)) ∧
  (∀ n : Nat, checksum (List.replicate n 0) = 0xFFFF) ∧
  (∀ s : Bytes, checksum s = 0 ↔ fold (wordSum s) = 0xFFFF)

/-- R68: feeding a sequence into a clear accumulator and finalizing gives the checksum of the sequence. -/
def Obligations.AccumulatorRealisesChecksum : Prop :=
  ∀ s : Bytes, csumFinal (csumFeed Accum.clear s) = checksum s

/-- R71: spans fed one after another make one byte stream. -/
def Obligations.SpansFeedAsOneStream : Prop :=
  ∀ spans : List Bytes, csumFinal (spans.foldl csumFeed Accum.clear) = checksum spans.flatten

/-- R76: the self-verification law at an even field, and a sequence that breaks it at an odd one. -/
def Obligations.ChecksumVerifiesItself : Prop :=
  (∀ (s : Bytes) (k : Nat), k % 2 = 0 → k + 1 < s.length → byteAt s k = 0 → byteAt s (k + 1) = 0 →
    fold (wordSum (patch16 s k (checksum s))) = 0xFFFF ∧ checksum (patch16 s k (checksum s)) = 0) ∧
  (∃ (s : Bytes) (k : Nat), k % 2 = 1 ∧ k + 1 < s.length ∧ byteAt s k = 0 ∧ byteAt s (k + 1) = 0 ∧
    checksum (patch16 s k (checksum s)) ≠ 0)

/-- R72: CSUM_CLEAR. -/
def Obligations.CsumClearClears : Prop :=
  ∀ s : State, s.fault = 0 →
    exec .csumClear s = .next { s with cmd := 0x10, csum := { acc := 0, odd := false, hold := 0 }, status := 0x00 }

/-- R73: CSUM_FEED feeds its span, or takes the span's fault. -/
def Obligations.CsumFeedFeedsSpan : Prop :=
  ∀ s : State, s.fault = 0 →
    (∀ d, memRead s.toNetblk s.arg0.toNat s.arg1.toNat = .ok d →
      exec .csumFeed s = .next { s with cmd := 0x11, csum := csumFeed s.csum d, status := 0x00 }) ∧
    (∀ f, memRead s.toNetblk s.arg0.toNat s.arg1.toNat = .error f → exec .csumFeed s = .next (s.faulted 0x11 f))

/-- R74: CSUM_FINAL puts the checksum of what has been fed into RES0 and leaves the accumulator. -/
def Obligations.CsumFinalReports : Prop :=
  ∀ s : State, s.fault = 0 → ∃ v : Word,
    exec .csumFinal s = .next { s with cmd := 0x12, res0 := v, status := 0x00 } ∧
    v.extractLsb' 16 16 = 0 ∧ v.extractLsb' 0 16 = csumFinal s.csum

/-- R75: CSUM_CALC leaves the accumulator as after feeding its span from clear, and the span's checksum in RES0; a fault
leaves the accumulator. -/
def Obligations.CsumCalcReports : Prop :=
  ∀ s : State, s.fault = 0 →
    (∀ d, memRead s.toNetblk s.arg0.toNat s.arg1.toNat = .ok d →
      exec .csumCalc s = .next { s with
        cmd := 0x13, csum := csumFeed { acc := 0, odd := false, hold := 0 } d, res0 := (checksum d).setWidth 32, status := 0x00 }) ∧
    (∀ f, memRead s.toNetblk s.arg0.toNat s.arg1.toNat = .error f → exec .csumCalc s = .next (s.faulted 0x13 f))

/-- R77: the IP and ICMP commands neither read nor write the accumulator. -/
def Obligations.NetworkLeavesAccumulator : Prop :=
  ∀ (i : Instr) (s : State) (a : Accum),
    i ∈ [Instr.netInit, .ipIsLoopback, .ipBuildHdr, .ipParseHdr, .ipSend, .ipProcess,
         .icmpInit, .icmpBuildReq, .icmpBuildRep, .icmpSendReq, .icmpSendRep, .icmpHandle] →
    ∃ t, exec i s = .next t ∧ t.csum = s.csum ∧ exec i { s with csum := a } = .next { t with csum := a }

/-! ## The Loopback Device -/

/-- R82: LB_SEND, with every status and fault it can end in. -/
def Obligations.LbSendEnqueues : Prop :=
  ∀ s : State, s.fault = 0 →
    (s.netReady = false → exec .lbSend s = .next (s.faulted 0x20 .notInit)) ∧
    (s.netReady = true →
      (∀ p, memRead s.toNetblk s.arg0.toNat s.arg1.toNat = .ok p → exec .lbSend s = .next (s.sends 0x20 p)) ∧
      (∀ f, memRead s.toNetblk s.arg0.toNat s.arg1.toNat = .error f → exec .lbSend s = .next (s.faulted 0x20 f)))

/-- R83: LB_RECV peeks. The length of a packet in a slot is at most 1514 (R30), so RES0 holds it. -/
def Obligations.LbRecvPeeks : Prop :=
  ∀ s : State, s.fault = 0 →
    (s.netReady = false → exec .lbRecv s = .next (s.faulted 0x21 .notInit)) ∧
    (s.netReady = true → s.queue.count = 0 →
      exec .lbRecv s = .next { s with cmd := 0x21, view := false, res0 := 0, status := 0x04 }) ∧
    (s.netReady = true → s.queue.count ≠ 0 → s.queue.slot[s.queue.rd].length ≤ 1514 → ∃ v : Word,
      exec .lbRecv s = .next { s with cmd := 0x21, view := true, res0 := v, status := 0x00 } ∧
      v.toNat = s.queue.slot[s.queue.rd].length)

/-- R84: LB_CONSUME removes the head packet and ends the view. -/
def Obligations.LbConsumeRemoves : Prop :=
  ∀ s : State, s.fault = 0 →
    (s.netReady = false → exec .lbConsume s = .next (s.faulted 0x22 .notInit)) ∧
    (s.netReady = true → s.queue.count = 0 →
      exec .lbConsume s = .next { s with cmd := 0x22, view := false, status := 0x04 }) ∧
    (s.netReady = true → s.queue.count ≠ 0 →
      exec .lbConsume s = .next { s with
        cmd := 0x22, view := false, status := 0x00, events := s.events ++ [.consume s.queue.slot[s.queue.rd]],
        queue := { s.queue with rd := s.queue.rd + 1, count := s.queue.count - 1 } })

/-- R79, R80, R85: an enqueue puts a packet last and a removal takes the first, in every state that keeps R30's ring. -/
def Obligations.QueueIsFifo : Prop :=
  ∀ b : Netblk, Inv b →
    (∀ p : Bytes, b.queue.count.val < 16 → p.length ≤ 1514 → ∃ c, lbEnqueue p b = (c, .ok) ∧
      queued c = queued b ++ [p] ∧ c.events = b.events ++ [.enqueue p] ∧ c.view = b.view) ∧
    (b.queue.count.val ≠ 0 → ∃ c, lbConsume b = (c, .ok) ∧ ∃ p, queued b = p :: queued c ∧
      c.events = b.events ++ [.consume p] ∧ c.view = false) ∧
    (b.queue.count.val = 0 → queued b = [] ∧ lbConsume b = ({ b with view := false }, .empty))

/-- R86: sixteen packets fit, a seventeenth gets TIMEOUT and changes nothing, and one removal makes room for exactly one. -/
def Obligations.QueueCapacity : Prop :=
  ∀ (b : Netblk) (ps : List Bytes), b.queue.count = 0 → ps.length = 16 → (∀ p ∈ ps, p.length ≤ 1514) →
    (∀ (k : Nat) (h : k < ps.length),
      (lbEnqueue ps[k] ((ps.take k).foldl (fun c p => (lbEnqueue p c).1) b)).2 = .ok) ∧
    (ps.foldl (fun c p => (lbEnqueue p c).1) b).queue.count.val = 16 ∧
    (∀ p, lbEnqueue p (ps.foldl (fun c p => (lbEnqueue p c).1) b) =
      (ps.foldl (fun c p => (lbEnqueue p c).1) b, .timeout)) ∧
    (∀ p q : Bytes, p.length ≤ 1514 → ∃ c,
      lbEnqueue p (lbConsume (ps.foldl (fun c p => (lbEnqueue p c).1) b)).1 = (c, .ok) ∧
      lbEnqueue q c = (c, .timeout))

/-- R81: what makes a view, what ends one, and that nothing else does. -/
def Obligations.ViewLifetime : Prop :=
  State.reset.view = false ∧
  ∀ (i : Instr) (s t : State), exec i s = .next t →
    (s.fault = 0 → s.netReady = true → startedCommand i = some .lbRecv → (t.view = true ↔ s.queue.count ≠ 0)) ∧
    (s.fault = 0 → s.netReady = true → startedCommand i = some .lbConsume ∨ startedCommand i = some .ipProcess →
      t.view = false) ∧
    (s.fault = 0 → s.netReady = false → startedCommand i = some .netInit → t.view = false) ∧
    (s.view = false → t.view = true → startedCommand i = some .lbRecv ∧ s.queue.count ≠ 0) ∧
    (s.view = true → t.view = false →
      (startedCommand i = some .lbRecv ∧ s.queue.count = 0) ∨ startedCommand i = some .lbConsume ∨
      startedCommand i = some .ipProcess ∨ startedCommand i = some .netInit)

/-! ## The IP Layer -/

/-- R88, R89: the twenty bytes of a built header, and that its checksum verifies. -/
def Obligations.HeaderLayout : Prop :=
  ∀ (dst : Word) (proto : Byte) (plen : Nat), plen ≤ 1480 →
    (∃ c : Half,
      c = checksum ([0x45, 0x00] ++ bytes16 (BitVec.ofNat 16 (20 + plen)) ++
        [0x00, 0x00, 0x00, 0x00, 64, proto, 0x00, 0x00, 127, 0, 0, 1] ++ bytes32 dst) ∧
      buildHeader dst proto plen = [0x45, 0x00] ++ bytes16 (BitVec.ofNat 16 (20 + plen)) ++
        [0x00, 0x00, 0x00, 0x00, 64, proto] ++ bytes16 c ++ [127, 0, 0, 1] ++ bytes32 dst) ∧
    (buildHeader dst proto plen).length = 20 ∧
    checksum (buildHeader dst proto plen) = 0

/-- R91: NET_INIT, and that nothing else sets `net_ready`. -/
def Obligations.NetInitBringsUp : Prop :=
  (∀ s : State, s.fault = 0 →
    (s.netReady = true → exec .netInit s = .next (s.faulted 0x30 .reinit)) ∧
    (s.netReady = false → exec .netInit s = .next { s with
      cmd := 0x30, netReady := true, queue := { s.queue with rd := 0, wr := 0, count := 0 }, view := false, status := 0x00 })) ∧
  (∀ (i : Instr) (s t : State), exec i s = .next t → s.netReady = false → t.netReady = true →
    startedCommand i = some .netInit)

/-- R92: IP_IS_LOOPBACK. -/
def Obligations.IpIsLoopbackTests : Prop :=
  ∀ s : State, s.fault = 0 →
    (s.arg0.toNat / 2 ^ 24 = 127 → exec .ipIsLoopback s = .next { s with cmd := 0x31, res0 := 1, status := 0x00 }) ∧
    (s.arg0.toNat / 2 ^ 24 ≠ 127 → exec .ipIsLoopback s = .next { s with cmd := 0x31, res0 := 0, status := 0x00 })

/-- R93: IP_BUILD_HDR: its faults, its length limit, and the header it stores, with every other byte of BUF as before. -/
def Obligations.IpBuildHdrStores : Prop :=
  ∀ s : State, s.fault = 0 →
    (s.arg1.extractLsb' 8 24 ≠ 0 → exec .ipBuildHdr s = .next (s.faulted 0x32 .badOperand)) ∧
    (s.arg1.extractLsb' 8 24 = 0 → s.arg3.toNat < 0x1000 ∨ 0x2000 < s.arg3.toNat + 20 →
      exec .ipBuildHdr s = .next (s.faulted 0x32 .badAddr)) ∧
    (s.arg1.extractLsb' 8 24 = 0 → 0x1000 ≤ s.arg3.toNat → s.arg3.toNat + 20 ≤ 0x2000 →
      (1500 < 20 + s.arg2.toNat → exec .ipBuildHdr s = .next (s.ended 0x32 0x02)) ∧
      (20 + s.arg2.toNat ≤ 1500 → ∃ (h : Bytes) (m : Memory),
        h = buildHeader s.arg0 (s.arg1.extractLsb' 0 8) s.arg2.toNat ∧
        exec .ipBuildHdr s =
          .next { s with cmd := 0x32, buf := m, res0 := (be16 h 10).setWidth 32, status := 0x00 } ∧
        (∀ i, i < 20 → m.read (s.arg3.toNat + i) = byteAt h i) ∧
        (∀ x, x < s.arg3.toNat ∨ s.arg3.toNat + 20 ≤ x → m.read x = s.buf.read x)))

/-- R94: IP_PARSE_HDR: the five big-endian words of the first twenty bytes, nothing validated. -/
def Obligations.IpParseHdrReports : Prop :=
  ∀ s : State, s.fault = 0 →
    (∀ f, memRead s.toNetblk s.arg0.toNat s.arg1.toNat = .error f → exec .ipParseHdr s = .next (s.faulted 0x33 f)) ∧
    (∀ d, memRead s.toNetblk s.arg0.toNat s.arg1.toNat = .ok d →
      (d.length < 20 → exec .ipParseHdr s = .next (s.ended 0x33 0x05)) ∧
      (20 ≤ d.length → ∃ r : Nat → Word,
        (∀ i, i < 5 → (r i).toNat = (byteAt d (4 * i)).toNat * 2 ^ 24 + (byteAt d (4 * i + 1)).toNat * 2 ^ 16 +
          (byteAt d (4 * i + 2)).toNat * 2 ^ 8 + (byteAt d (4 * i + 3)).toNat) ∧
        exec .ipParseHdr s = .next { s with
          cmd := 0x33, res0 := r 0, res1 := r 1, res2 := r 2, res3 := r 3, res4 := r 4, status := 0x00 }))

/-- R95: IP_SEND, with every status and fault it can end in. -/
def Obligations.IpSendSends : Prop :=
  ∀ s : State, s.fault = 0 →
    (s.arg1.extractLsb' 8 24 ≠ 0 → exec .ipSend s = .next (s.faulted 0x34 .badOperand)) ∧
    (s.arg1.extractLsb' 8 24 = 0 → s.netReady = false → exec .ipSend s = .next (s.faulted 0x34 .notInit)) ∧
    (s.arg1.extractLsb' 8 24 = 0 → s.netReady = true →
      (∀ f, memRead s.toNetblk s.arg2.toNat s.arg3.toNat = .error f → exec .ipSend s = .next (s.faulted 0x34 f)) ∧
      (∀ d, memRead s.toNetblk s.arg2.toNat s.arg3.toNat = .ok d →
        exec .ipSend s = .next (s.ipSends 0x34 s.arg0 (s.arg1.extractLsb' 0 8) d)))

/-- R96, one iteration: a short packet or another protocol is consumed and delivered nowhere; ICMP is handled first, with every
byte after offset 20, and then consumed. -/
def Obligations.DrainIteration : Prop :=
  ∀ b : Netblk, b.queue.count ≠ 0 →
    (b.queue.slot[b.queue.rd].length < 20 ∨ byteAt b.queue.slot[b.queue.rd] 9 ≠ 1 →
      drainOne b = (lbConsume b).1) ∧
    (20 ≤ b.queue.slot[b.queue.rd].length → byteAt b.queue.slot[b.queue.rd] 9 = 1 →
      drainOne b = (lbConsume (icmpHandle (be32 b.queue.slot[b.queue.rd] 12) (b.queue.slot[b.queue.rd].drop 20) b).1).1)

/-- R98: an iteration enqueues at most one packet, only for an ICMP echo request of at least 28 bytes, and that packet is an
ICMP echo reply. -/
def Obligations.DrainAnswersOnlyRequests : Prop :=
  ∀ b : Netblk, b.queue.count ≠ 0 →
    enqueuedIn (drainOne b).events = enqueuedIn b.events ∨
    (28 ≤ b.queue.slot[b.queue.rd].length ∧ byteAt b.queue.slot[b.queue.rd] 9 = 1 ∧
      byteAt b.queue.slot[b.queue.rd] 20 = 8 ∧
      ∃ r : Bytes, enqueuedIn (drainOne b).events = enqueuedIn b.events ++ [r] ∧ byteAt r 9 = 1 ∧ byteAt r 20 = 0)

/-- R96, R97, R98: IP_PROCESS repeats the iteration until the queue is empty, at most twice as often as it held packets; RES0
counts the iterations. -/
def Obligations.IpProcessDrains : Prop :=
  ∀ s : State, s.fault = 0 →
    (s.netReady = false → exec .ipProcess s = .next (s.faulted 0x35 .notInit)) ∧
    (s.netReady = true → Inv s.toNetblk → ∃ (k : Nat) (v : Word) (b : Netblk),
      b = drainOne^[k] { s.toNetblk with cmd := 0x35 } ∧ k ≤ 2 * s.queue.count.val ∧ v.toNat = k ∧
      (∀ j, j < k → (drainOne^[j] { s.toNetblk with cmd := 0x35 }).queue.count ≠ 0) ∧ b.queue.count = 0 ∧
      exec .ipProcess s = .next { s with toNetblk := { b with view := false, res0 := v, status := 0x00 } })

/-- R99: no address outside 127.0.0.0/8 is routed; to 127.0.0.1 the packet goes last into the queue. -/
def Obligations.Routing : Prop :=
  (∀ (dst : Word) (proto : Byte) (payload : Bytes) (b : Netblk), dst.extractLsb' 24 8 ≠ 127 →
    ipSend dst proto payload b = (b, .noRoute)) ∧
  (∀ (proto : Byte) (payload : Bytes) (b : Netblk), Inv b → payload.length ≤ 1480 → b.queue.count.val < 16 →
    ∃ c, ipSend 0x7F000001 proto payload b = (c, .ok) ∧
      queued c = queued b ++ [buildHeader 0x7F000001 proto payload.length ++ payload])

/-! ## The ICMP Layer -/

/-- R100, R101: the bytes of an echo frame, and that its checksum verifies for any data, odd or even in length. -/
def Obligations.EchoFrame : Prop :=
  ∀ (type : Byte) (idseq : Word) (data : Bytes), type = 8 ∨ type = 0 →
    (∃ c : Half,
      c = checksum ([type, 0x00, 0x00, 0x00] ++ bytes16 (idseq.extractLsb' 16 16) ++ bytes16 (idseq.extractLsb' 0 16) ++ data) ∧
      buildEcho type idseq data =
        [type, 0x00] ++ bytes16 c ++ bytes16 (idseq.extractLsb' 16 16) ++ bytes16 (idseq.extractLsb' 0 16) ++ data) ∧
    (buildEcho type idseq data).length = 8 + data.length ∧
    checksum (buildEcho type idseq data) = 0

/-- R106: the reply's checksum is the request's plus 0x0800 in ones' complement, or zero where that gives 0xFFFF. -/
def Obligations.ReplyChecksum : Prop :=
  ∀ (idseq : Word) (data : Bytes),
    (be16 (buildEcho 0 idseq data) 2 ≠ 0 →
      be16 (buildEcho 0 idseq data) 2 = onesAdd (be16 (buildEcho 8 idseq data) 2) 0x0800) ∧
    (be16 (buildEcho 0 idseq data) 2 = 0 → onesAdd (be16 (buildEcho 8 idseq data) 2) 0x0800 = 0xFFFF)

/-- R104: ICMP_INIT. -/
def Obligations.IcmpInitAnnounces : Prop :=
  ∀ s : State, s.fault = 0 →
    exec .icmpInit s = .next { s with cmd := 0x40, events := s.events ++ [.icmpReady], status := 0x00 }

/-- R105, R106: ICMP_BUILD_REQ and ICMP_BUILD_REP: their faults, their length limit, and the frame they store over a snapshot of
the data, with every other byte of BUF as before. -/
def Obligations.IcmpBuildStores : Prop :=
  ∀ (i : Instr) (w : Word) (type : Byte),
    (i = .icmpBuildReq ∧ w = 0x41 ∧ type = 8) ∨ (i = .icmpBuildRep ∧ w = 0x42 ∧ type = 0) →
    ∀ s : State, s.fault = 0 →
      (∀ f, memRead s.toNetblk s.arg1.toNat s.arg2.toNat = .error f → exec i s = .next (s.faulted w f)) ∧
      (∀ d, memRead s.toNetblk s.arg1.toNat s.arg2.toNat = .ok d →
        (s.arg3.toNat < 0x1000 ∨ 0x2000 < s.arg3.toNat + (8 + s.arg2.toNat) → exec i s = .next (s.faulted w .badAddr)) ∧
        (0x1000 ≤ s.arg3.toNat → s.arg3.toNat + (8 + s.arg2.toNat) ≤ 0x2000 →
          (1480 < 8 + s.arg2.toNat → exec i s = .next (s.ended w 0x02)) ∧
          (8 + s.arg2.toNat ≤ 1480 → ∃ (f : Bytes) (m : Memory) (n : Word),
            f = buildEcho type s.arg0 d ∧ n.toNat = 8 + s.arg2.toNat ∧
            exec i s = .next { s with cmd := w, buf := m, res0 := n, res1 := (be16 f 2).setWidth 32, status := 0x00 } ∧
            (∀ j, j < 8 + s.arg2.toNat → m.read (s.arg3.toNat + j) = byteAt f j) ∧
            (∀ x, x < s.arg3.toNat ∨ s.arg3.toNat + (8 + s.arg2.toNat) ≤ x → m.read x = s.buf.read x))))

/-- R107, R108: ICMP_SEND_REQ and ICMP_SEND_REP, with every status and fault they can end in. -/
def Obligations.IcmpSendSends : Prop :=
  ∀ (i : Instr) (w : Word) (type : Byte),
    (i = .icmpSendReq ∧ w = 0x43 ∧ type = 8) ∨ (i = .icmpSendRep ∧ w = 0x44 ∧ type = 0) →
    ∀ s : State, s.fault = 0 →
      (s.netReady = false → exec i s = .next (s.faulted w .notInit)) ∧
      (s.netReady = true →
        (∀ f, memRead s.toNetblk s.arg2.toNat s.arg3.toNat = .error f → exec i s = .next (s.faulted w f)) ∧
        (∀ d, memRead s.toNetblk s.arg2.toNat s.arg3.toNat = .ok d →
          exec i s = .next (s.icmpSends w type s.arg0 s.arg1 d)))

/-- R103, R109: ICMP_HANDLE, by the length and the type of the frame; the code byte and the checksum play no part. -/
def Obligations.IcmpHandleHandles : Prop :=
  ∀ s : State, s.fault = 0 →
    (s.netReady = false → exec .icmpHandle s = .next (s.faulted 0x45 .notInit)) ∧
    (s.netReady = true →
      (∀ f, memRead s.toNetblk s.arg1.toNat s.arg2.toNat = .error f → exec .icmpHandle s = .next (s.faulted 0x45 f)) ∧
      (∀ d, memRead s.toNetblk s.arg1.toNat s.arg2.toNat = .ok d →
        (d.length < 8 → exec .icmpHandle s = .next { s with cmd := 0x45, res0 := 0, res1 := 0, status := 0x00 }) ∧
        (8 ≤ d.length → byteAt d 0 = 8 → ∃ r : State,
          r = ({ s with events := s.events ++
            [.echoRequestRx s.arg0 (be16 d 4) (be16 d 6) (d.length - 8)] } : State).icmpSends 0x45 0 s.arg0
              (word32 (be16 d 4) (be16 d 6)) (d.drop 8) ∧
          exec .icmpHandle s = .next { r with res0 := 1, res1 := r.status, status := 0x00 }) ∧
        (8 ≤ d.length → byteAt d 0 = 0 → exec .icmpHandle s = .next { s with
          cmd := 0x45, events := s.events ++ [.echoReplyRx s.arg0 (be16 d 4) (be16 d 6) (d.length - 8)],
          res0 := 2, res1 := 0, status := 0x00 }) ∧
        (8 ≤ d.length → byteAt d 0 ≠ 8 → byteAt d 0 ≠ 0 → exec .icmpHandle s = .next { s with
          cmd := 0x45, events := s.events ++ [.icmpUnknownRx s.arg0 (byteAt d 0)], res0 := 3, res1 := 0, status := 0x00 })))

/-- R111, for every loopback destination, identifier, sequence and payload: a request sent into an empty queue and drained is
answered; the trace shows request and reply, the reply carries the same identifier, sequence and payload, and its
checksums verify. -/
def Obligations.EchoRoundTrip : Prop :=
  ∀ (s : State) (d : Bytes), Inv s.toNetblk → s.fault = 0 → s.netReady = true → s.queue.count = 0 →
    s.arg0.extractLsb' 24 8 = 127 → memRead s.toNetblk s.arg2.toNat s.arg3.toNat = .ok d → d.length ≤ 1472 →
    ∃ (t u : State) (req rep : Bytes),
      exec .icmpSendReq s = .next t ∧ t.status = 0x00 ∧ exec .ipProcess t = .next u ∧ u.status = 0x00 ∧
      req = buildHeader s.arg0 1 (8 + d.length) ++ buildEcho 8 s.arg1 d ∧
      rep = buildHeader 0x7F000001 1 (8 + d.length) ++ buildEcho 0 s.arg1 d ∧
      u.events = s.events ++
        [.enqueue req,
         .echoRequestRx 0x7F000001 (s.arg1.extractLsb' 16 16) (s.arg1.extractLsb' 0 16) d.length,
         .enqueue rep, .consume req,
         .echoReplyRx 0x7F000001 (s.arg1.extractLsb' 16 16) (s.arg1.extractLsb' 0 16) d.length,
         .consume rep] ∧
      u.res0 = 2 ∧ u.queue.count = 0 ∧
      rep.drop 24 = req.drop 24 ∧ checksum (rep.drop 20) = 0 ∧ checksum (rep.take 20) = 0

/-! ## Faults -/

/-- R114: the bit each fault sets, and the faults a host's transaction sets. -/
def Obligations.FaultBits : Prop :=
  FaultCode.illegal.mask = 0x01 ∧ FaultCode.badAddr.mask = 0x02 ∧ FaultCode.notInit.mask = 0x04 ∧
  FaultCode.reinit.mask = 0x08 ∧ FaultCode.staleView.mask = 0x10 ∧ FaultCode.bus.mask = 0x20 ∧
  FaultCode.badOperand.mask = 0x40

/-- R62: a CMD write of an illegal word raises F_ILLEGAL; the word stays in CMD. -/
def Obligations.IllegalWordFaults : Prop :=
  ∀ (s : State) (w : Word), s.fault = 0 → w.extractLsb' 8 24 ≠ 0 ∨ w ∉ legalCommandWords →
    exec (.wr32 0x00 w) s = .next (s.faulted w .illegal)

/-- R115: a command that faults changes CMD, STATUS and its one bit of FAULT, and nothing else. -/
def Obligations.CommandFaultIsPrecise : Prop :=
  ∀ (i : Instr) (w : Word) (s t : State), commandWord i = some w ∨ i = .wr32 0x00 w → s.fault = 0 → exec i s = .next t →
    t.fault ≠ 0 → ∃ f : FaultCode, t = s.faulted w f

/-- R117: while FAULT is not zero a CMD write only writes CMD and STATUS; every other transaction acts as it would with FAULT
clear, its own fault bit ORed in, and a read of FAULT returns it; only reset ends the halt. -/
def Obligations.HaltedBlock : Prop :=
  ∀ s : State, s.fault ≠ 0 →
    (∀ (i : Instr) (w : Word), commandWord i = some w → exec i s = .next { s with cmd := w, status := 0x80 }) ∧
    (∀ w : Word, exec (.wr32 0x00 w) s = .next { s with cmd := w, status := 0x80 }) ∧
    (∀ i : Instr, commandWord i = none → (∀ w, i ≠ .wr32 0x00 w) → i ≠ .rd32 0x2C →
      ∃ t, exec i { s with fault := 0 } = .next t ∧ exec i s = .next { t with fault := s.fault ||| t.fault }) ∧
    exec (.rd32 0x2C) s = .next (s.returned s.fault) ∧
    (∀ t, (∀ rest, s.pending ≠ .reset :: rest) → step s = .next t → t.fault ≠ 0)

/-- R26, R118: no step clears a bit of FAULT, but reset. -/
def Obligations.FaultIsSticky : Prop :=
  ∀ s t : State, (∀ rest, s.pending ≠ .reset :: rest) → step s = .next t → t.fault &&& s.fault = s.fault
end

