-- ==== Sys2Proof/Laws/Memory.lean ====
section
/-! SUPPORT. BUF as memory: a read after a write, the frame of a write, and the canonical form, which every memory operation
keeps and the reset state has. -/

namespace Sys2Proof.Machine

open Sys2Proof

theorem Memory.lookup_write_same (a : Nat) (v : Byte) (m : Memory) : (Memory.write a v m).lookup a = some v := by
  induction m with
  | nil => simp [Memory.write]
  | cons c m ih =>
    obtain ⟨x, w⟩ := c
    unfold Memory.write
    split
    · simp
    · split
      · simp
      · rename_i h
        have hne : (a == x) = false := by simpa using h
        simp [List.lookup, hne, ih]

/-- Above every listed address nothing is listed. -/
theorem Memory.lookup_eq_none_of_lt {a : Nat} {m : Memory} (h : ∀ c ∈ m, a < c.1) : m.lookup a = none := by
  induction m with
  | nil => rfl
  | cons c m ih =>
    have hc := h c (by simp)
    have hne : (a == c.1) = false := by simp; omega
    simp [List.lookup, hne, ih (fun d hd => h d (by simp [hd]))]

theorem Memory.lookup_write_other {a x : Nat} (v : Byte) (m : Memory) (h : x ≠ a) :
    (Memory.write a v m).lookup x = m.lookup x := by
  have hxa : (x == a) = false := by simpa using h
  induction m with
  | nil => simp [Memory.write, List.lookup, hxa]
  | cons c m ih =>
    obtain ⟨y, w⟩ := c
    unfold Memory.write
    split
    · simp [List.lookup, hxa]
    · split
      · rename_i hay; subst hay; simp [List.lookup, hxa]
      · simp only [List.lookup]; split <;> simp_all

@[simp] theorem Memory.readWith_write_same (init : Nat → Byte) (a : Nat) (v : Byte) (m : Memory) :
    (Memory.write a v m).readWith init a = v := by
  simp [Memory.readWith, Memory.lookup_write_same]

theorem Memory.readWith_write_other (init : Nat → Byte) {a x : Nat} (v : Byte) (m : Memory) (h : x ≠ a) :
    (Memory.write a v m).readWith init x = m.readWith init x := by
  simp [Memory.readWith, Memory.lookup_write_other v m h]

/-- A read after a write to the same address gives the byte written (R39). -/
@[simp] theorem Memory.read_write_same (a : Nat) (v : Byte) (m : Memory) : (Memory.write a v m).read a = v :=
  Memory.readWith_write_same _ a v m

/-- A write leaves every other address as it was (R39). -/
theorem Memory.read_write_other {a x : Nat} (v : Byte) (m : Memory) (h : x ≠ a) :
    (Memory.write a v m).read x = m.read x :=
  Memory.readWith_write_other _ v m h

theorem Memory.mem_write {a : Nat} {v : Byte} {m : Memory} {c : Host.Cell} (h : c ∈ Memory.write a v m) :
    c = (a, v) ∨ c ∈ m := by
  induction m with
  | nil => simpa [Memory.write] using h
  | cons d m ih =>
    obtain ⟨x, w⟩ := d
    unfold Memory.write at h
    split at h
    · simpa using h
    · split at h
      · rcases List.mem_cons.mp h with h | h
        · exact .inl h
        · exact .inr (by simp [h])
      · rcases List.mem_cons.mp h with h | h
        · exact .inr (by simp [h])
        · rcases ih h with h | h
          · exact .inl h
          · exact .inr (by simp [h])

/-- A write keeps the canonical form. -/
theorem Memory.wf_write {a : Nat} (v : Byte) {m : Memory} (hm : m.wf) (ha : inBuf a) : (Memory.write a v m).wf := by
  refine ⟨?_, fun c hc => ?_⟩
  · have hp := hm.1
    clear hm
    induction m with
    | nil => simp [Memory.write]
    | cons d m ih =>
      obtain ⟨x, w⟩ := d
      rw [List.pairwise_cons] at hp
      unfold Memory.write
      split
      · rename_i hlt
        refine List.pairwise_cons.mpr ⟨fun c hc => ?_, List.pairwise_cons.mpr hp⟩
        rcases List.mem_cons.mp hc with h | h
        · subst h; exact hlt
        · exact lt_trans hlt (hp.1 c h)
      · split
        · rename_i heq
          subst heq
          exact List.pairwise_cons.mpr ⟨fun c hc => hp.1 c hc, hp.2⟩
        · rename_i h1 h2
          refine List.pairwise_cons.mpr ⟨fun c hc => ?_, ih hp.2⟩
          rcases Memory.mem_write hc with h | h
          · subst h; show x < a; omega
          · exact hp.1 c h
  · rcases Memory.mem_write hc with h | h
    · subst h; exact ha
    · exact hm.2 c h

/-- A span of writes keeps the canonical form. -/
theorem Memory.wf_writeBytes {s : Bytes} : ∀ {a : Nat} {m : Memory}, m.wf →
    Config.bufBase ≤ a → a + s.length ≤ Config.bufBase + Config.bufSize → (Memory.writeBytes a s m).wf := by
  induction s with
  | nil => intro a m hm _ _; exact hm
  | cons v s ih =>
    intro a m hm h1 h2
    simp only [List.length_cons] at h2
    exact ih (Memory.wf_write v hm ⟨h1, by omega⟩) (by omega) (by omega)

/-- A span of writes leaves every byte outside the span as it was (R48). -/
theorem Memory.read_writeBytes_outside {s : Bytes} : ∀ {a x : Nat} {m : Memory}, x < a ∨ a + s.length ≤ x →
    (Memory.writeBytes a s m).read x = m.read x := by
  induction s with
  | nil => intro a x m _; rfl
  | cons v s ih =>
    intro a x m h
    simp only [List.length_cons] at h
    rw [Memory.writeBytes, ih (by omega), Memory.read_write_other v m (by omega)]

/-- Inside the span, each byte is the one stored there (R48). -/
theorem Memory.read_writeBytes_inside {s : Bytes} : ∀ {a i : Nat} {m : Memory} (h : i < s.length),
    (Memory.writeBytes a s m).read (a + i) = s[i] := by
  induction s with
  | nil => intro a i m h; simp at h
  | cons v s ih =>
    intro a i m h
    rw [Memory.writeBytes]
    cases i with
    | zero => rw [Memory.read_writeBytes_outside (.inl (by omega))]; simp
    | succ j =>
      have := ih (a := a + 1) (i := j) (m := Memory.write a v m) (by simpa using h)
      simpa [Nat.add_assoc, Nat.add_comm 1 j] using this

@[simp] theorem Memory.slice_length (m : Memory) (a n : Nat) : (m.slice a n).length = n := by
  simp [Memory.slice]

theorem Memory.slice_getElem (m : Memory) (a n i : Nat) (h : i < (m.slice a n).length) :
    (m.slice a n)[i] = m.read (a + i) := by
  simp [Memory.slice]

/-- The reset state's BUF has the canonical form, and lists nothing. -/
theorem Memory.wf_reset : State.reset.buf.wf := by decide

theorem Memory.lookup_mem {m : Memory} {a : Nat} {v : Byte} (h : m.lookup a = some v) : (a, v) ∈ m := by
  induction m with
  | nil => simp [List.lookup] at h
  | cons c m ih =>
    obtain ⟨x, w⟩ := c
    simp only [List.lookup] at h
    split at h
    · rename_i he
      have : a = x := by simpa using he
      cases h; subst this; simp
    · exact List.mem_cons_of_mem _ (ih h)

/-- Canonical memories that list the same at every address are the same list. -/
theorem Memory.eq_of_lookup {m n : Memory} (hm : m.wf) (hn : n.wf) (h : ∀ a, m.lookup a = n.lookup a) : m = n := by
  obtain ⟨hm, -⟩ := hm
  obtain ⟨hn, -⟩ := hn
  induction m generalizing n with
  | nil =>
    cases n with
    | nil => rfl
    | cons c n => have := h c.1; simp [List.lookup] at this
  | cons c m ih =>
    cases n with
    | nil => have := h c.1; simp [List.lookup] at this
    | cons d n =>
      obtain ⟨x, v⟩ := c
      obtain ⟨y, w⟩ := d
      rw [List.pairwise_cons] at hm hn
      have hxy : x = y := by
        rcases lt_trichotomy x y with hlt | heq | hlt
        · have h1 := h x
          have hne : (x == y) = false := by simp; omega
          have h2 : n.lookup x = none := Memory.lookup_eq_none_of_lt (fun e he => lt_trans hlt (hn.1 e he))
          simp [List.lookup, hne, h2] at h1
        · exact heq
        · have h1 := h y
          have hne : (y == x) = false := by simp; omega
          have h2 : m.lookup y = none := Memory.lookup_eq_none_of_lt (fun e he => lt_trans hlt (hm.1 e he))
          simp [List.lookup, hne, h2] at h1
      subst hxy
      have hvw : v = w := by have := h x; simpa [List.lookup] using this
      subst hvw
      have ht : ∀ a, m.lookup a = n.lookup a := fun a => by
        by_cases ha : a = x
        · subst ha
          rw [Memory.lookup_eq_none_of_lt (fun e he => hm.1 e he), Memory.lookup_eq_none_of_lt (fun e he => hn.1 e he)]
        · have hne : (a == x) = false := by simpa using ha
          have := h a
          simpa [List.lookup, hne] using this
      rw [ih ht hm.2 hn.2]

/-- The form is canonical over the open parameter: memories that read alike whatever BUF held at reset are equal data (R10). -/
theorem Memory.eq_of_readWith {m n : Memory} (hm : m.wf) (hn : n.wf)
    (h : ∀ init a, m.readWith init a = n.readWith init a) : m = n := by
  refine Memory.eq_of_lookup hm hn fun a => ?_
  cases hma : m.lookup a with
  | none =>
    cases hna : n.lookup a with
    | none => rfl
    | some w =>
      have := h (fun _ => w + 1) a
      simp [Memory.readWith, hma, hna] at this
  | some v =>
    cases hna : n.lookup a with
    | none =>
      have := h (fun _ => v + 1) a
      simp [Memory.readWith, hma, hna] at this
    | some w =>
      have := h (fun _ => 0) a
      simpa [Memory.readWith, hma, hna] using this

end Sys2Proof.Machine
end

