-- ==== Sys2Proof/Laws/State.lean ====
section
/-! SUPPORT. One lemma for each field of the block under each named update: no later proof unfolds an update. -/

namespace Sys2Proof.Machine

open Sys2Proof

variable (b : Netblk)

@[simp] theorem setStatus_cmd (c : Status) : (b.setStatus c).cmd = b.cmd := rfl
@[simp] theorem setStatus_status (c : Status) : (b.setStatus c).status = c.code := rfl
@[simp] theorem setStatus_arg0 (c : Status) : (b.setStatus c).arg0 = b.arg0 := rfl
@[simp] theorem setStatus_arg1 (c : Status) : (b.setStatus c).arg1 = b.arg1 := rfl
@[simp] theorem setStatus_arg2 (c : Status) : (b.setStatus c).arg2 = b.arg2 := rfl
@[simp] theorem setStatus_arg3 (c : Status) : (b.setStatus c).arg3 = b.arg3 := rfl
@[simp] theorem setStatus_res0 (c : Status) : (b.setStatus c).res0 = b.res0 := rfl
@[simp] theorem setStatus_res1 (c : Status) : (b.setStatus c).res1 = b.res1 := rfl
@[simp] theorem setStatus_res2 (c : Status) : (b.setStatus c).res2 = b.res2 := rfl
@[simp] theorem setStatus_res3 (c : Status) : (b.setStatus c).res3 = b.res3 := rfl
@[simp] theorem setStatus_res4 (c : Status) : (b.setStatus c).res4 = b.res4 := rfl
@[simp] theorem setStatus_fault (c : Status) : (b.setStatus c).fault = b.fault := rfl
@[simp] theorem setStatus_csum (c : Status) : (b.setStatus c).csum = b.csum := rfl
@[simp] theorem setStatus_queue (c : Status) : (b.setStatus c).queue = b.queue := rfl
@[simp] theorem setStatus_view (c : Status) : (b.setStatus c).view = b.view := rfl
@[simp] theorem setStatus_netReady (c : Status) : (b.setStatus c).netReady = b.netReady := rfl
@[simp] theorem setStatus_events (c : Status) : (b.setStatus c).events = b.events := rfl
@[simp] theorem setStatus_buf (c : Status) : (b.setStatus c).buf = b.buf := rfl

@[simp] theorem orFault_cmd (f : FaultCode) : (b.orFault f).cmd = b.cmd := rfl
@[simp] theorem orFault_status (f : FaultCode) : (b.orFault f).status = b.status := rfl
@[simp] theorem orFault_arg0 (f : FaultCode) : (b.orFault f).arg0 = b.arg0 := rfl
@[simp] theorem orFault_arg1 (f : FaultCode) : (b.orFault f).arg1 = b.arg1 := rfl
@[simp] theorem orFault_arg2 (f : FaultCode) : (b.orFault f).arg2 = b.arg2 := rfl
@[simp] theorem orFault_arg3 (f : FaultCode) : (b.orFault f).arg3 = b.arg3 := rfl
@[simp] theorem orFault_res0 (f : FaultCode) : (b.orFault f).res0 = b.res0 := rfl
@[simp] theorem orFault_res1 (f : FaultCode) : (b.orFault f).res1 = b.res1 := rfl
@[simp] theorem orFault_res2 (f : FaultCode) : (b.orFault f).res2 = b.res2 := rfl
@[simp] theorem orFault_res3 (f : FaultCode) : (b.orFault f).res3 = b.res3 := rfl
@[simp] theorem orFault_res4 (f : FaultCode) : (b.orFault f).res4 = b.res4 := rfl
@[simp] theorem orFault_fault (f : FaultCode) : (b.orFault f).fault = b.fault ||| f.mask := rfl
@[simp] theorem orFault_csum (f : FaultCode) : (b.orFault f).csum = b.csum := rfl
@[simp] theorem orFault_queue (f : FaultCode) : (b.orFault f).queue = b.queue := rfl
@[simp] theorem orFault_view (f : FaultCode) : (b.orFault f).view = b.view := rfl
@[simp] theorem orFault_netReady (f : FaultCode) : (b.orFault f).netReady = b.netReady := rfl
@[simp] theorem orFault_events (f : FaultCode) : (b.orFault f).events = b.events := rfl
@[simp] theorem orFault_buf (f : FaultCode) : (b.orFault f).buf = b.buf := rfl

@[simp] theorem takeHostFault_cmd (f : FaultCode) : (takeHostFault f b).cmd = b.cmd := rfl
@[simp] theorem takeHostFault_status (f : FaultCode) : (takeHostFault f b).status = b.status := rfl
@[simp] theorem takeHostFault_arg0 (f : FaultCode) : (takeHostFault f b).arg0 = b.arg0 := rfl
@[simp] theorem takeHostFault_arg1 (f : FaultCode) : (takeHostFault f b).arg1 = b.arg1 := rfl
@[simp] theorem takeHostFault_arg2 (f : FaultCode) : (takeHostFault f b).arg2 = b.arg2 := rfl
@[simp] theorem takeHostFault_arg3 (f : FaultCode) : (takeHostFault f b).arg3 = b.arg3 := rfl
@[simp] theorem takeHostFault_res0 (f : FaultCode) : (takeHostFault f b).res0 = b.res0 := rfl
@[simp] theorem takeHostFault_res1 (f : FaultCode) : (takeHostFault f b).res1 = b.res1 := rfl
@[simp] theorem takeHostFault_res2 (f : FaultCode) : (takeHostFault f b).res2 = b.res2 := rfl
@[simp] theorem takeHostFault_res3 (f : FaultCode) : (takeHostFault f b).res3 = b.res3 := rfl
@[simp] theorem takeHostFault_res4 (f : FaultCode) : (takeHostFault f b).res4 = b.res4 := rfl
@[simp] theorem takeHostFault_fault (f : FaultCode) : (takeHostFault f b).fault = b.fault ||| f.mask := rfl
@[simp] theorem takeHostFault_csum (f : FaultCode) : (takeHostFault f b).csum = b.csum := rfl
@[simp] theorem takeHostFault_queue (f : FaultCode) : (takeHostFault f b).queue = b.queue := rfl
@[simp] theorem takeHostFault_view (f : FaultCode) : (takeHostFault f b).view = b.view := rfl
@[simp] theorem takeHostFault_netReady (f : FaultCode) : (takeHostFault f b).netReady = b.netReady := rfl
@[simp] theorem takeHostFault_events (f : FaultCode) : (takeHostFault f b).events = b.events := rfl
@[simp] theorem takeHostFault_buf (f : FaultCode) : (takeHostFault f b).buf = b.buf := rfl

@[simp] theorem takeCommandFault_cmd (f : FaultCode) : (takeCommandFault f b).cmd = b.cmd := rfl
@[simp] theorem takeCommandFault_status (f : FaultCode) : (takeCommandFault f b).status = Status.faulted.code := rfl
@[simp] theorem takeCommandFault_arg0 (f : FaultCode) : (takeCommandFault f b).arg0 = b.arg0 := rfl
@[simp] theorem takeCommandFault_arg1 (f : FaultCode) : (takeCommandFault f b).arg1 = b.arg1 := rfl
@[simp] theorem takeCommandFault_arg2 (f : FaultCode) : (takeCommandFault f b).arg2 = b.arg2 := rfl
@[simp] theorem takeCommandFault_arg3 (f : FaultCode) : (takeCommandFault f b).arg3 = b.arg3 := rfl
@[simp] theorem takeCommandFault_res0 (f : FaultCode) : (takeCommandFault f b).res0 = b.res0 := rfl
@[simp] theorem takeCommandFault_res1 (f : FaultCode) : (takeCommandFault f b).res1 = b.res1 := rfl
@[simp] theorem takeCommandFault_res2 (f : FaultCode) : (takeCommandFault f b).res2 = b.res2 := rfl
@[simp] theorem takeCommandFault_res3 (f : FaultCode) : (takeCommandFault f b).res3 = b.res3 := rfl
@[simp] theorem takeCommandFault_res4 (f : FaultCode) : (takeCommandFault f b).res4 = b.res4 := rfl
@[simp] theorem takeCommandFault_fault (f : FaultCode) : (takeCommandFault f b).fault = b.fault ||| f.mask := rfl
@[simp] theorem takeCommandFault_csum (f : FaultCode) : (takeCommandFault f b).csum = b.csum := rfl
@[simp] theorem takeCommandFault_queue (f : FaultCode) : (takeCommandFault f b).queue = b.queue := rfl
@[simp] theorem takeCommandFault_view (f : FaultCode) : (takeCommandFault f b).view = b.view := rfl
@[simp] theorem takeCommandFault_netReady (f : FaultCode) : (takeCommandFault f b).netReady = b.netReady := rfl
@[simp] theorem takeCommandFault_events (f : FaultCode) : (takeCommandFault f b).events = b.events := rfl
@[simp] theorem takeCommandFault_buf (f : FaultCode) : (takeCommandFault f b).buf = b.buf := rfl

@[simp] theorem emit_cmd (e : Event) : (emit e b).cmd = b.cmd := rfl
@[simp] theorem emit_status (e : Event) : (emit e b).status = b.status := rfl
@[simp] theorem emit_arg0 (e : Event) : (emit e b).arg0 = b.arg0 := rfl
@[simp] theorem emit_arg1 (e : Event) : (emit e b).arg1 = b.arg1 := rfl
@[simp] theorem emit_arg2 (e : Event) : (emit e b).arg2 = b.arg2 := rfl
@[simp] theorem emit_arg3 (e : Event) : (emit e b).arg3 = b.arg3 := rfl
@[simp] theorem emit_res0 (e : Event) : (emit e b).res0 = b.res0 := rfl
@[simp] theorem emit_res1 (e : Event) : (emit e b).res1 = b.res1 := rfl
@[simp] theorem emit_res2 (e : Event) : (emit e b).res2 = b.res2 := rfl
@[simp] theorem emit_res3 (e : Event) : (emit e b).res3 = b.res3 := rfl
@[simp] theorem emit_res4 (e : Event) : (emit e b).res4 = b.res4 := rfl
@[simp] theorem emit_fault (e : Event) : (emit e b).fault = b.fault := rfl
@[simp] theorem emit_csum (e : Event) : (emit e b).csum = b.csum := rfl
@[simp] theorem emit_queue (e : Event) : (emit e b).queue = b.queue := rfl
@[simp] theorem emit_view (e : Event) : (emit e b).view = b.view := rfl
@[simp] theorem emit_netReady (e : Event) : (emit e b).netReady = b.netReady := rfl
@[simp] theorem emit_events (e : Event) : (emit e b).events = b.events ++ [e] := rfl
@[simp] theorem emit_buf (e : Event) : (emit e b).buf = b.buf := rfl

@[simp] theorem memWrite_cmd (a : Nat) (s : Bytes) : (memWrite a s b).cmd = b.cmd := rfl
@[simp] theorem memWrite_status (a : Nat) (s : Bytes) : (memWrite a s b).status = b.status := rfl
@[simp] theorem memWrite_arg0 (a : Nat) (s : Bytes) : (memWrite a s b).arg0 = b.arg0 := rfl
@[simp] theorem memWrite_arg1 (a : Nat) (s : Bytes) : (memWrite a s b).arg1 = b.arg1 := rfl
@[simp] theorem memWrite_arg2 (a : Nat) (s : Bytes) : (memWrite a s b).arg2 = b.arg2 := rfl
@[simp] theorem memWrite_arg3 (a : Nat) (s : Bytes) : (memWrite a s b).arg3 = b.arg3 := rfl
@[simp] theorem memWrite_res0 (a : Nat) (s : Bytes) : (memWrite a s b).res0 = b.res0 := rfl
@[simp] theorem memWrite_res1 (a : Nat) (s : Bytes) : (memWrite a s b).res1 = b.res1 := rfl
@[simp] theorem memWrite_res2 (a : Nat) (s : Bytes) : (memWrite a s b).res2 = b.res2 := rfl
@[simp] theorem memWrite_res3 (a : Nat) (s : Bytes) : (memWrite a s b).res3 = b.res3 := rfl
@[simp] theorem memWrite_res4 (a : Nat) (s : Bytes) : (memWrite a s b).res4 = b.res4 := rfl
@[simp] theorem memWrite_fault (a : Nat) (s : Bytes) : (memWrite a s b).fault = b.fault := rfl
@[simp] theorem memWrite_csum (a : Nat) (s : Bytes) : (memWrite a s b).csum = b.csum := rfl
@[simp] theorem memWrite_queue (a : Nat) (s : Bytes) : (memWrite a s b).queue = b.queue := rfl
@[simp] theorem memWrite_view (a : Nat) (s : Bytes) : (memWrite a s b).view = b.view := rfl
@[simp] theorem memWrite_netReady (a : Nat) (s : Bytes) : (memWrite a s b).netReady = b.netReady := rfl
@[simp] theorem memWrite_events (a : Nat) (s : Bytes) : (memWrite a s b).events = b.events := rfl
@[simp] theorem memWrite_buf (a : Nat) (s : Bytes) : (memWrite a s b).buf = b.buf.writeBytes a s := rfl

@[simp] theorem pushPacket_cmd (p : Bytes) : (pushPacket p b).cmd = b.cmd := rfl
@[simp] theorem pushPacket_status (p : Bytes) : (pushPacket p b).status = b.status := rfl
@[simp] theorem pushPacket_arg0 (p : Bytes) : (pushPacket p b).arg0 = b.arg0 := rfl
@[simp] theorem pushPacket_arg1 (p : Bytes) : (pushPacket p b).arg1 = b.arg1 := rfl
@[simp] theorem pushPacket_arg2 (p : Bytes) : (pushPacket p b).arg2 = b.arg2 := rfl
@[simp] theorem pushPacket_arg3 (p : Bytes) : (pushPacket p b).arg3 = b.arg3 := rfl
@[simp] theorem pushPacket_res0 (p : Bytes) : (pushPacket p b).res0 = b.res0 := rfl
@[simp] theorem pushPacket_res1 (p : Bytes) : (pushPacket p b).res1 = b.res1 := rfl
@[simp] theorem pushPacket_res2 (p : Bytes) : (pushPacket p b).res2 = b.res2 := rfl
@[simp] theorem pushPacket_res3 (p : Bytes) : (pushPacket p b).res3 = b.res3 := rfl
@[simp] theorem pushPacket_res4 (p : Bytes) : (pushPacket p b).res4 = b.res4 := rfl
@[simp] theorem pushPacket_fault (p : Bytes) : (pushPacket p b).fault = b.fault := rfl
@[simp] theorem pushPacket_csum (p : Bytes) : (pushPacket p b).csum = b.csum := rfl
@[simp] theorem pushPacket_queue (p : Bytes) : (pushPacket p b).queue = { b.queue with slot := b.queue.slot.set b.queue.wr p, wr := b.queue.wr + 1, count := b.queue.count + 1 } := rfl
@[simp] theorem pushPacket_view (p : Bytes) : (pushPacket p b).view = b.view := rfl
@[simp] theorem pushPacket_netReady (p : Bytes) : (pushPacket p b).netReady = b.netReady := rfl
@[simp] theorem pushPacket_events (p : Bytes) : (pushPacket p b).events = b.events ++ [.enqueue p] := rfl
@[simp] theorem pushPacket_buf (p : Bytes) : (pushPacket p b).buf = b.buf := rfl

@[simp] theorem popPacket_cmd : (popPacket b).cmd = b.cmd := rfl
@[simp] theorem popPacket_status : (popPacket b).status = b.status := rfl
@[simp] theorem popPacket_arg0 : (popPacket b).arg0 = b.arg0 := rfl
@[simp] theorem popPacket_arg1 : (popPacket b).arg1 = b.arg1 := rfl
@[simp] theorem popPacket_arg2 : (popPacket b).arg2 = b.arg2 := rfl
@[simp] theorem popPacket_arg3 : (popPacket b).arg3 = b.arg3 := rfl
@[simp] theorem popPacket_res0 : (popPacket b).res0 = b.res0 := rfl
@[simp] theorem popPacket_res1 : (popPacket b).res1 = b.res1 := rfl
@[simp] theorem popPacket_res2 : (popPacket b).res2 = b.res2 := rfl
@[simp] theorem popPacket_res3 : (popPacket b).res3 = b.res3 := rfl
@[simp] theorem popPacket_res4 : (popPacket b).res4 = b.res4 := rfl
@[simp] theorem popPacket_fault : (popPacket b).fault = b.fault := rfl
@[simp] theorem popPacket_csum : (popPacket b).csum = b.csum := rfl
@[simp] theorem popPacket_queue : (popPacket b).queue = { b.queue with rd := b.queue.rd + 1, count := b.queue.count - 1 } := rfl
@[simp] theorem popPacket_view : (popPacket b).view = b.view := rfl
@[simp] theorem popPacket_netReady : (popPacket b).netReady = b.netReady := rfl
@[simp] theorem popPacket_events : (popPacket b).events = b.events ++ [.consume b.head] := rfl
@[simp] theorem popPacket_buf : (popPacket b).buf = b.buf := rfl

@[simp] theorem takeReset_eq : b.takeReset = Netblk.reset := rfl

variable (s : State)

@[simp] theorem resetInput_toNetblk : (resetInput s).toNetblk = Netblk.reset := rfl
@[simp] theorem resetInput_pending : (resetInput s).pending = s.pending := rfl
@[simp] theorem resetInput_readData : (resetInput s).readData = s.readData := rfl
@[simp] theorem reset_toNetblk : State.reset.toNetblk = Netblk.reset := rfl
@[simp] theorem reset_pending : State.reset.pending = [] := rfl
@[simp] theorem reset_readData : State.reset.readData = [] := rfl

/-- A state is its block and its two port fields. -/
theorem State.ext_parts {s t : State} (h : s.toNetblk = t.toNetblk) (hp : s.pending = t.pending)
    (hr : s.readData = t.readData) : s = t := by
  cases s; cases t; simp_all

end Sys2Proof.Machine
end

