-- ==== Sys2Proof/Laws/Ops.lean ====
section
/-! SUPPORT. For each shared operation, one lemma that says everything it can do: later proofs cite it instead of unfolding
the operation. -/

namespace Sys2Proof.Machine

open Sys2Proof

/-- R47: a source span that is readable is empty, inside BUF, or inside the viewed head packet. -/
theorem memRead_ok_cases {b : Netblk} {a n : Nat} {d : Bytes} (h : memRead b a n = .ok d) :
    (n = 0 ∧ d = []) ∨
    (n ≠ 0 ∧ 0x1000 ≤ a ∧ a + n ≤ 0x2000 ∧ d = b.buf.slice a n) ∨
    (n ≠ 0 ∧ 0x2000 ≤ a ∧ a < 0x2000 + 1514 ∧ b.view = true ∧ a + n ≤ 0x2000 + b.head.length ∧
      d = (b.head.drop (a - 0x2000)).take n) := by
  unfold memRead at h
  split at h
  · rename_i h0; cases h; exact .inl ⟨h0, rfl⟩
  · rename_i h0
    split at h
    · rename_i h1; cases h; exact .inr (.inl ⟨h0, h1.1, h1.2, rfl⟩)
    · split at h
      · rename_i h2
        split at h
        · cases h
        · rename_i hv
          split at h
          · rename_i hl; cases h; exact .inr (.inr ⟨h0, h2.1, h2.2, by simpa using hv, hl, rfl⟩)
          · cases h
      · cases h

/-- R47: a source span that cannot be read raises F_STALE_VIEW or F_BAD_ADDR, and no other fault. -/
theorem memRead_error_cases {b : Netblk} {a n : Nat} {f : FaultCode} (h : memRead b a n = .error f) :
    n ≠ 0 ∧ ((f = .staleView ∧ b.view = false) ∨ f = .badAddr) := by
  unfold memRead at h
  split at h
  · cases h
  · rename_i h0
    refine ⟨h0, ?_⟩
    split at h
    · cases h
    · split at h
      · split at h
        · rename_i hv; cases h; exact .inl ⟨rfl, hv⟩
        · split at h
          · cases h
          · cases h; exact .inr rfl
      · cases h; exact .inr rfl

/-- A readable span has the length asked for. -/
theorem memRead_length {b : Netblk} {a n : Nat} {d : Bytes} (h : memRead b a n = .ok d) : d.length = n := by
  rcases memRead_ok_cases h with ⟨rfl, rfl⟩ | ⟨-, -, -, rfl⟩ | ⟨-, ha, -, -, hl, rfl⟩
  · rfl
  · simp
  · simp only [List.length_take, List.length_drop]; omega

/-- `MemRead` reads BUF, the head packet and `view`, and nothing else of the block. -/
theorem memRead_congr {b c : Netblk} (hb : b.buf = c.buf) (hq : b.queue = c.queue) (hv : b.view = c.view) (a n : Nat) :
    memRead b a n = memRead c a n := by
  have hh : b.head = c.head := by simp only [Netblk.head, hq]
  simp only [memRead, hb, hh, hv]

/-- R48: a destination span passes when it is empty or wholly inside BUF. -/
theorem checkDst_ok_iff (a n : Nat) : checkDst a n = .ok () ↔ n = 0 ∨ (0x1000 ≤ a ∧ a + n ≤ 0x2000) := by
  unfold checkDst
  split
  · simp [*]
  · split
    · rename_i h0 h1; exact ⟨fun _ => .inr h1, fun _ => rfl⟩
    · rename_i h0 h1
      exact ⟨fun h => by simp at h, fun h => h.elim (absurd · h0) (fun h => absurd h h1)⟩

/-- R48: the only fault of a destination span is F_BAD_ADDR. -/
theorem checkDst_error {a n : Nat} {f : FaultCode} (h : checkDst a n = .error f) : f = .badAddr := by
  unfold checkDst at h
  split at h
  · cases h
  · split at h <;> cases h; rfl

/-- R59: proto8 passes exactly when bits [31:8] are zero, and its only fault is F_BAD_OPERAND. -/
theorem proto8_cases (w : Word) :
    (w.extractLsb' 8 24 = 0 ∧ proto8 w = .ok (w.extractLsb' 0 8)) ∨
    (w.extractLsb' 8 24 ≠ 0 ∧ proto8 w = .error .badOperand) := by
  unfold proto8
  split
  · rename_i h; exact .inl ⟨h, rfl⟩
  · rename_i h; exact .inr ⟨h, rfl⟩

/-- R63 step 3. -/
theorem requireInit_cases (b : Netblk) :
    (b.netReady = true ∧ requireInit b = .ok ()) ∨ (b.netReady = false ∧ requireInit b = .error .notInit) := by
  unfold requireInit
  cases h : b.netReady
  · exact .inr ⟨rfl, rfl⟩
  · exact .inl ⟨rfl, rfl⟩

/-- R79: what offering a packet to the queue does. -/
theorem lbEnqueue_cases (p : Bytes) (b : Netblk) :
    (b.queue.count.val = 16 ∧ lbEnqueue p b = (b, .timeout)) ∨
    (b.queue.count.val ≠ 16 ∧ 1514 < p.length ∧ lbEnqueue p b = (b, .invalidPacket)) ∨
    (b.queue.count.val ≠ 16 ∧ p.length ≤ 1514 ∧ lbEnqueue p b = (pushPacket p b, .ok)) := by
  unfold lbEnqueue
  split
  · rename_i h; exact .inl ⟨h, rfl⟩
  · rename_i h
    split
    · rename_i hl; exact .inr (.inl ⟨h, hl, rfl⟩)
    · rename_i hl; exact .inr (.inr ⟨h, by simpa using hl, rfl⟩)

/-- R80: what a removal does. -/
theorem lbConsume_cases (b : Netblk) :
    (b.queue.count = 0 ∧ lbConsume b = ({ b with view := false }, .empty)) ∨
    (b.queue.count ≠ 0 ∧ lbConsume b = (popPacket { b with view := false }, .ok)) := by
  unfold lbConsume
  split
  · rename_i h; exact .inl ⟨h, rfl⟩
  · rename_i h; exact .inr ⟨h, rfl⟩

/-- R90: what an IP send does. -/
theorem ipSend_cases (dst : Word) (proto : Byte) (payload : Bytes) (b : Netblk) :
    (isLoopback dst = false ∧ ipSend dst proto payload b = (b, .noRoute)) ∨
    (isLoopback dst = true ∧ 1500 < 20 + payload.length ∧ ipSend dst proto payload b = (b, .invalidPacket)) ∨
    (isLoopback dst = true ∧ 20 + payload.length ≤ 1500 ∧
      ipSend dst proto payload b = lbEnqueue (buildHeader dst proto payload.length ++ payload) b) := by
  unfold ipSend
  split
  · rename_i h; exact .inl ⟨h, rfl⟩
  · rename_i h
    have h' : isLoopback dst = true := by simpa using h
    split
    · rename_i hl; exact .inr (.inl ⟨h', hl, rfl⟩)
    · rename_i hl; exact .inr (.inr ⟨h', by simpa using hl, rfl⟩)

/-- R102: what an ICMP send does. -/
theorem icmpSend_cases (type : Byte) (dst idseq : Word) (data : Bytes) (b : Netblk) :
    (1480 < 8 + data.length ∧ icmpSend type dst idseq data b = (b, .invalidPacket)) ∨
    (8 + data.length ≤ 1480 ∧ icmpSend type dst idseq data b = ipSend dst 1 (buildEcho type idseq data) b) := by
  unfold icmpSend
  split
  · rename_i h; exact .inl ⟨h, rfl⟩
  · rename_i h; exact .inr ⟨by simpa using h, rfl⟩

/-- R103: what the inbound handler does, by the length and the type byte of the frame. -/
theorem icmpHandle_cases (src : Word) (d : Bytes) (b : Netblk) :
    (d.length < 8 ∧ icmpHandle src d b = (b, .ignored, .ok)) ∨
    (8 ≤ d.length ∧ byteAt d 0 = 8 ∧ icmpHandle src d b =
      ((icmpSend 0 src (word32 (be16 d 4) (be16 d 6)) (d.drop 8)
          (emit (.echoRequestRx src (be16 d 4) (be16 d 6) (d.drop 8).length) b)).1, .request,
        (icmpSend 0 src (word32 (be16 d 4) (be16 d 6)) (d.drop 8)
          (emit (.echoRequestRx src (be16 d 4) (be16 d 6) (d.drop 8).length) b)).2)) ∨
    (8 ≤ d.length ∧ byteAt d 0 = 0 ∧ icmpHandle src d b =
      (emit (.echoReplyRx src (be16 d 4) (be16 d 6) (d.drop 8).length) b, .reply, .ok)) ∨
    (8 ≤ d.length ∧ byteAt d 0 ≠ 8 ∧ byteAt d 0 ≠ 0 ∧ icmpHandle src d b =
      (emit (.icmpUnknownRx src (byteAt d 0)) b, .unknown, .ok)) := by
  unfold icmpHandle
  split
  · rename_i h; exact .inl ⟨h, rfl⟩
  · rename_i h
    have h' : 8 ≤ d.length := by simpa using h
    by_cases h8 : byteAt d 0 = 8
    · exact .inr (.inl ⟨h', h8, by simp [h8]⟩)
    · by_cases h0 : byteAt d 0 = 0
      · exact .inr (.inr (.inl ⟨h', h0, by simp [h0]⟩))
      · exact .inr (.inr (.inr ⟨h', h8, h0, by simp only [if_neg h8, if_neg h0]⟩))

/-- R63: what a command can do to the block: report that it is halted, fault with everything else as it was, or end. -/
theorem commandSequence_cases (w : Word) (body : Netblk → Except FaultCode Netblk) (b : Netblk) :
    (b.fault ≠ 0 ∧ commandSequence w body b = { b with cmd := w, status := 0x80 }) ∨
    (b.fault = 0 ∧ ∃ f, body { b with cmd := w } = .error f ∧
      commandSequence w body b = { b with cmd := w, fault := b.fault ||| f.mask, status := 0x80 }) ∨
    (b.fault = 0 ∧ ∃ c, body { b with cmd := w } = .ok c ∧ commandSequence w body b = c) := by
  unfold commandSequence
  by_cases h : b.fault = 0
  · have hh : b.halted = false := by simp [Netblk.halted, h]
    simp only [hh]
    cases hb : body { b with cmd := w } with
    | error f => exact .inr (.inl ⟨h, f, rfl, rfl⟩)
    | ok c => exact .inr (.inr ⟨h, c, rfl, rfl⟩)
  · have hh : b.halted = true := bne_iff_ne.mpr h
    simp only [hh]
    exact .inl ⟨h, rfl⟩

theorem runCommand_eq (w : Word) (body : Netblk → Except FaultCode Netblk) (s : State) :
    runCommand w body s = .next { s with toNetblk := commandSequence w body s.toNetblk } := rfl

theorem finishRead_eq (r : Netblk × Word) (s : State) :
    finishRead r s = .next { s with toNetblk := r.1, readData := s.readData ++ [r.2] } := rfl

theorem finishWrite_eq (b : Netblk) (s : State) : finishWrite b s = .next { s with toNetblk := b } := rfl

/-- R36: the region of an address, by its range. -/
theorem regionOf_cases (a : Nat) :
    (a < 0x40 ∧ regionOf a = .reg) ∨
    (0x1000 ≤ a ∧ a < 0x2000 ∧ regionOf a = .buf) ∨
    (0x2000 ≤ a ∧ a < 0x25EA ∧ regionOf a = .rxwin) ∨
    (((0x40 ≤ a ∧ a < 0x1000) ∨ 0x25EA ≤ a) ∧ regionOf a = .unmapped) := by
  simp only [regionOf, Config.regEnd, Config.bufBase, Config.bufSize, Config.rxwinBase, Config.rxwinSize]
  split
  · rename_i h; exact .inl ⟨h, rfl⟩
  · split
    · rename_i h; exact .inr (.inl ⟨h.1, h.2, rfl⟩)
    · split
      · rename_i h; exact .inr (.inr (.inl ⟨h.1, h.2, rfl⟩))
      · exact .inr (.inr (.inr ⟨by omega, rfl⟩))

/-- The port takes the host's inputs in order (R52). -/
theorem nextInput_cons {s : State} {x : PortInput} {rest : List PortInput} (h : s.pending = x :: rest) :
    nextInput s = some (x, { s with pending := rest }) := by
  simp [nextInput, h]

theorem nextInput_nil {s : State} (h : s.pending = []) : nextInput s = none := by
  simp [nextInput, h]

/-- R96: one unrolling of the drain loop. -/
theorem drainLoop_succ (fuel k : Nat) (b : Netblk) :
    drainLoop (fuel + 1) k b = if b.queue.count = 0 then (b, k) else drainLoop fuel (k + 1) (drainOne b) := rfl

/-- R96: an empty queue is drained at once. -/
theorem drainLoop_empty {b : Netblk} (h : b.queue.count = 0) (fuel k : Nat) : drainLoop fuel k b = (b, k) := by
  cases fuel <;> simp [drainLoop, h]

end Sys2Proof.Machine
end

