-- ==== Sys2Proof/Laws/Record.lean ====
section
/-! SUPPORT. The fields of a host transaction's record (R57): each is read back as it was written. -/

namespace Sys2Proof

theorem record_toNat (k : BitVec 2) (a : Addr) (d : Word) :
    (record k a d).toNat = k.toNat + a.toNat * 65536 + d.toNat * 4294967296 := by
  have h1 := k.isLt
  have h2 := a.isLt
  have h3 := d.isLt
  rw [record, BitVec.toNat_ofNat]
  exact Nat.mod_eq_of_lt (by omega)

@[simp] theorem record_reserved (k : BitVec 2) (a : Addr) (d : Word) : (record k a d).extractLsb' 2 14 = 0 := by
  apply BitVec.eq_of_toNat_eq
  have h1 := k.isLt
  rw [BitVec.extractLsb'_toNat, record_toNat, Nat.shiftRight_eq_div_pow]
  show _ = 0
  omega

@[simp] theorem record_kind (k : BitVec 2) (a : Addr) (d : Word) : (record k a d).extractLsb' 0 2 = k := by
  apply BitVec.eq_of_toNat_eq
  have h1 := k.isLt
  rw [BitVec.extractLsb'_toNat, record_toNat, Nat.shiftRight_zero]
  omega

@[simp] theorem record_addr (k : BitVec 2) (a : Addr) (d : Word) : (record k a d).extractLsb' 16 16 = a := by
  apply BitVec.eq_of_toNat_eq
  have h1 := k.isLt
  have h2 := a.isLt
  rw [BitVec.extractLsb'_toNat, record_toNat, Nat.shiftRight_eq_div_pow]
  omega

@[simp] theorem record_data (k : BitVec 2) (a : Addr) (d : Word) : (record k a d).extractLsb' 32 32 = d := by
  apply BitVec.eq_of_toNat_eq
  have h1 := k.isLt
  have h2 := a.isLt
  have h3 := d.isLt
  rw [BitVec.extractLsb'_toNat, record_toNat, Nat.shiftRight_eq_div_pow]
  omega

/-- Bit 0 of a record is bit 0 of its kind. -/
theorem record_isRead (k : BitVec 2) (a : Addr) (d : Word) : isRead (record k a d) = decide (k.extractLsb' 0 1 = 0) := by
  have h : (record k a d).extractLsb' 0 1 = k.extractLsb' 0 1 := by
    apply BitVec.eq_of_toNat_eq
    rw [BitVec.extractLsb'_toNat, BitVec.extractLsb'_toNat, record_toNat, Nat.shiftRight_zero, Nat.shiftRight_zero]
    omega
  simp only [isRead, h]

end Sys2Proof
end

