-- ==== Sys2Proof/Laws/PerInstr.lean ====
section
/-! SUPPORT. The statement made of every instruction, one constructor at a time: its record has zeros in the reserved bits
[15:2], and its kind says whether it is a read (R57). -/

namespace Sys2Proof.Laws.EncodedForm

open Sys2Proof

/-- R57: reserved bits zero, and a read kind for RD8 and RD32 only. -/
def Statement (i : Instr) : Prop :=
  (encode i).extractLsb' 2 14 = 0 ∧
  isRead (encode i) = match i with
    | .rd8 _ | .rd32 _ => true
    | _ => false

theorem csumClear : Statement .csumClear := ⟨record_reserved _ _ _, record_isRead _ _ _⟩
theorem csumFeed : Statement .csumFeed := ⟨record_reserved _ _ _, record_isRead _ _ _⟩
theorem csumFinal : Statement .csumFinal := ⟨record_reserved _ _ _, record_isRead _ _ _⟩
theorem csumCalc : Statement .csumCalc := ⟨record_reserved _ _ _, record_isRead _ _ _⟩
theorem lbSend : Statement .lbSend := ⟨record_reserved _ _ _, record_isRead _ _ _⟩
theorem lbRecv : Statement .lbRecv := ⟨record_reserved _ _ _, record_isRead _ _ _⟩
theorem lbConsume : Statement .lbConsume := ⟨record_reserved _ _ _, record_isRead _ _ _⟩
theorem netInit : Statement .netInit := ⟨record_reserved _ _ _, record_isRead _ _ _⟩
theorem ipIsLoopback : Statement .ipIsLoopback := ⟨record_reserved _ _ _, record_isRead _ _ _⟩
theorem ipBuildHdr : Statement .ipBuildHdr := ⟨record_reserved _ _ _, record_isRead _ _ _⟩
theorem ipParseHdr : Statement .ipParseHdr := ⟨record_reserved _ _ _, record_isRead _ _ _⟩
theorem ipSend : Statement .ipSend := ⟨record_reserved _ _ _, record_isRead _ _ _⟩
theorem ipProcess : Statement .ipProcess := ⟨record_reserved _ _ _, record_isRead _ _ _⟩
theorem icmpInit : Statement .icmpInit := ⟨record_reserved _ _ _, record_isRead _ _ _⟩
theorem icmpBuildReq : Statement .icmpBuildReq := ⟨record_reserved _ _ _, record_isRead _ _ _⟩
theorem icmpBuildRep : Statement .icmpBuildRep := ⟨record_reserved _ _ _, record_isRead _ _ _⟩
theorem icmpSendReq : Statement .icmpSendReq := ⟨record_reserved _ _ _, record_isRead _ _ _⟩
theorem icmpSendRep : Statement .icmpSendRep := ⟨record_reserved _ _ _, record_isRead _ _ _⟩
theorem icmpHandle : Statement .icmpHandle := ⟨record_reserved _ _ _, record_isRead _ _ _⟩
theorem rd8 (a : Addr) : Statement (.rd8 a) := ⟨record_reserved _ _ _, record_isRead _ _ _⟩
theorem wr8 (a : Addr) (v : Byte) : Statement (.wr8 a v) := ⟨record_reserved _ _ _, record_isRead _ _ _⟩
theorem rd32 (a : Addr) : Statement (.rd32 a) := ⟨record_reserved _ _ _, record_isRead _ _ _⟩
theorem wr32 (a : Addr) (v : Word) : Statement (.wr32 a v) := ⟨record_reserved _ _ _, record_isRead _ _ _⟩

end Sys2Proof.Laws.EncodedForm
end

