-- ==== Sys2Proof/Tests/Slice0.lean ====
section
/-! SUPPORT. Tests: the smoke test of WellFormed, words written out from the spec, one step of each instruction with the
values of spec/95_test_vectors.md (the vector is named at each), and for each statement a state that meets its hypotheses. -/

namespace Sys2Proof.Tests

open Sys2Proof Sys2Proof.Machine

/-! ## Helpers -/

/-- The outcome is a next state with `p`. -/
def gives (o : Host.Outcome State Fault Refusal) (p : State → Bool) : Bool :=
  match o with
  | .next s => p s
  | .fault _ => false
  | .refused _ => false

/-- A block after reset, its BUF beginning with the bytes `d`, its operand registers set. -/
def blk (d : Bytes) (a0 a1 a2 a3 : Word) : State :=
  { State.reset with buf := Memory.writeBytes 0x1000 d [], arg0 := a0, arg1 := a1, arg2 := a2, arg3 := a3 }

/-- The block after NET_INIT with the packets `ps` queued from position 0. -/
def up (ps : List Bytes) (s : State) : State :=
  { s with netReady := true, queue := {
    slot := Vector.ofFn (fun i => ps.getD i.val []), rd := 0, wr := Fin.ofNat 16 ps.length, count := Fin.ofNat 17 ps.length } }

/-- The host views the head packet. -/
def viewing (s : State) : State := { s with view := true }

/-- The block is halted by F_ILLEGAL. -/
def halted (s : State) : State := { s with fault := 0x01, status := 0x80 }

/-! ## Well-formedness and decoding -/

theorem test_wellFormed_refuses_spelled_command : WellFormed (.wr32 0 0x10) = false := by decide
theorem test_wellFormed_refuses_last_command : WellFormed (.wr32 0 0x45) = false := by decide
theorem test_wellFormed_keeps_illegal_word : WellFormed (.wr32 0 0x14) = true := by decide
theorem test_wellFormed_keeps_register_write : WellFormed (.wr32 4 0x10) = true := by decide

/-- EN-1 to EN-4. -/
theorem test_decode_checksum :
    decode 0x0000001000000003 = .ok .csumClear ∧ decode 0x0000001100000003 = .ok .csumFeed ∧
    decode 0x0000001200000003 = .ok .csumFinal ∧ decode 0x0000001300000003 = .ok .csumCalc := ⟨rfl, rfl, rfl, rfl⟩
/-- EN-5 to EN-7. -/
theorem test_decode_loopback :
    decode 0x0000002000000003 = .ok .lbSend ∧ decode 0x0000002100000003 = .ok .lbRecv ∧
    decode 0x0000002200000003 = .ok .lbConsume := ⟨rfl, rfl, rfl⟩
/-- EN-8 to EN-13. -/
theorem test_decode_ip :
    decode 0x0000003000000003 = .ok .netInit ∧ decode 0x0000003100000003 = .ok .ipIsLoopback ∧
    decode 0x0000003200000003 = .ok .ipBuildHdr ∧ decode 0x0000003300000003 = .ok .ipParseHdr ∧
    decode 0x0000003400000003 = .ok .ipSend ∧ decode 0x0000003500000003 = .ok .ipProcess := ⟨rfl, rfl, rfl, rfl, rfl, rfl⟩
/-- EN-14 to EN-19. -/
theorem test_decode_icmp :
    decode 0x0000004000000003 = .ok .icmpInit ∧ decode 0x0000004100000003 = .ok .icmpBuildReq ∧
    decode 0x0000004200000003 = .ok .icmpBuildRep ∧ decode 0x0000004300000003 = .ok .icmpSendReq ∧
    decode 0x0000004400000003 = .ok .icmpSendRep ∧ decode 0x0000004500000003 = .ok .icmpHandle := ⟨rfl, rfl, rfl, rfl, rfl, rfl⟩
/-- EN-20 to EN-28. -/
theorem test_decode_transactions :
    decode 0x0000000010000000 = .ok (.rd8 0x1000) ∧ decode 0x0000005A10000001 = .ok (.wr8 0x1000 0x5A) ∧
    decode 0x0000000000040002 = .ok (.rd32 4) ∧ decode 0x7F00000100080003 = .ok (.wr32 8 0x7F000001) ∧
    decode 0x0000000000300002 = .ok (.rd32 0x30) ∧ decode 0x0000000000340002 = .ok (.rd32 0x34) ∧
    decode 0x0000000025E90000 = .ok (.rd8 0x25E9) ∧ decode 0xFFFFFFFF00140003 = .ok (.wr32 0x14 0xFFFFFFFF) ∧
    decode 0x00000000002C0002 = .ok (.rd32 0x2C) := ⟨rfl, rfl, rfl, rfl, rfl, rfl, rfl, rfl, rfl⟩
/-- EN-29, EN-30, and an RD8 with data (R57). -/
theorem test_decode_refuses :
    decode 0x0000015A10000001 = .error .byteDataTooWide ∧ decode 0x0000000000040006 = .error .reservedNotZero ∧
    decode 0x0000000110000000 = .error .readDataNotZero := ⟨rfl, rfl, rfl⟩
/-- EN-21, EN-23, EN-2: the encoder's words. -/
theorem test_encode :
    encode (.wr8 0x1000 0x5A) = 0x0000005A10000001 ∧ encode (.wr32 8 0x7F000001) = 0x7F00000100080003 ∧
    encode .csumFeed = 0x0000001100000003 := by decide
/-- A command word of the opcode table (format C), and a transaction (format HT). -/
theorem test_decodeTableWord :
    decodeTableWord 32 0x00000045 = some .icmpHandle ∧ decodeTableWord 64 0x0000005A10000001 = some (.wr8 0x1000 0x5A) ∧
    decodeTableWord 32 0x00000046 = none := by decide
theorem test_fetched_command_runs : gives (step (State.reset.withFetchWord 32 0x40)) (fun t => t.events = [.icmpReady]) = true := by
  decide
theorem test_fetched_transaction_runs :
    gives (step (State.reset.withFetchWord 64 0x7F00000100080003)) (fun t => t.arg0 = 0x7F000001 ∧ t.pending = []) = true := by
  decide

/-! ## One step of each instruction -/

/-- CS-4. -/
theorem test_csumClear : gives (exec .csumClear { State.reset with csum := ⟨0x1234, true, 0x56⟩ })
    (fun t => csumState t.csum = 0) = true := by decide
/-- CS-1. -/
theorem test_csumFeed : gives (exec .csumFeed (blk [0x12, 0x34, 0x56] 0x1000 3 0 0))
    (fun t => t.status = 0 ∧ csumState t.csum = 0x01561234) = true := by decide
/-- CS-8. -/
theorem test_csumFeed_past_end : gives (exec .csumFeed (blk [] 0x1FFF 2 0 0))
    (fun t => t.status = 0x80 ∧ t.fault = 2 ∧ csumState t.csum = 0) = true := by decide
/-- CS-2. -/
theorem test_csumFinal : gives (exec .csumFinal { State.reset with csum := ⟨0x1234, true, 0x56⟩ })
    (fun t => t.res0 = 0x97CB ∧ csumState t.csum = 0x01561234) = true := by decide
/-- CS-10. -/
theorem test_csumCalc_end_around : gives (exec .csumCalc (blk [0xFF, 0xFF, 0x00, 0x01] 0x1000 4 0 0))
    (fun t => t.res0 = 0xFFFE ∧ csumState t.csum = 0x00000001) = true := by decide
/-- CS-5. -/
theorem test_csumCalc_empty : gives (exec .csumCalc (blk [] 0x1000 0 0 0)) (fun t => t.res0 = 0xFFFF) = true := by decide

/-- LB-13. -/
theorem test_lbSend_copies_the_viewed_head :
    gives (exec .lbSend (viewing (up [[0xA1, 0xA2, 0xA3]] (blk [] 0x2000 3 0 0))))
      (fun t => fifoState t.toNetblk = 0x81020002 ∧ queued t.toNetblk = [[0xA1, 0xA2, 0xA3], [0xA1, 0xA2, 0xA3]]) = true := by decide
/-- LB-14. -/
theorem test_lbSend_past_head :
    gives (exec .lbSend (viewing (up [[0xA1, 0xA2, 0xA3]] (blk [] 0x2001 3 0 0))))
      (fun t => t.status = 0x80 ∧ t.fault = 2 ∧ fifoState t.toNetblk = 0x81010001) = true := by decide
/-- LB-16. -/
theorem test_lbRecv : gives (exec .lbRecv (up [[0xA1]] State.reset))
    (fun t => t.res0 = 1 ∧ fifoState t.toNetblk = 0x81010001) = true := by decide
/-- LB-9. -/
theorem test_lbRecv_empty : gives (exec .lbRecv (up [] State.reset))
    (fun t => t.status = 4 ∧ fifoState t.toNetblk = 0x80000000) = true := by decide
/-- The first LB_CONSUME of program P2. -/
theorem test_lbConsume : gives (exec .lbConsume (viewing (up [[0xA1, 0xA2, 0xA3], [0xB1, 0xB2]] State.reset)))
    (fun t => queued t.toNetblk = [[0xB1, 0xB2]] ∧ t.events = [.consume [0xA1, 0xA2, 0xA3]] ∧ t.view = false) = true := by decide
/-- LB-10. -/
theorem test_lbConsume_empty : gives (exec .lbConsume (up [] State.reset)) (fun t => t.status = 4 ∧ t.events = []) = true := by
  decide

/-- LB-1. -/
theorem test_netInit : gives (exec .netInit State.reset) (fun t => t.status = 0 ∧ fifoState t.toNetblk = 0x80000000) = true := by
  decide
/-- FT-5. -/
theorem test_netInit_twice : gives (exec .netInit (up [] State.reset)) (fun t => t.status = 0x80 ∧ t.fault = 8) = true := by decide
/-- IP-12. -/
theorem test_ipIsLoopback : gives (exec .ipIsLoopback (blk [] 0x7FFFFFFF 0 0 0)) (fun t => t.res0 = 1) = true := by decide
/-- IP-16. -/
theorem test_ipIsLoopback_below : gives (exec .ipIsLoopback (blk [] 0x7EFFFFFF 0 0 0)) (fun t => t.res0 = 0) = true := by decide
/-- IP-1. -/
theorem test_ipBuildHdr : gives (exec .ipBuildHdr (blk [] 0x7F000001 1 40 0x1100))
    (fun t => t.res0 = 0x7CBF ∧ t.buf.slice 0x1100 20 =
      [0x45, 0, 0, 0x3C, 0, 0, 0, 0, 0x40, 1, 0x7C, 0xBF, 0x7F, 0, 0, 1, 0x7F, 0, 0, 1]) = true := by decide
/-- IP-10. -/
theorem test_ipBuildHdr_fault_outranks : gives (exec .ipBuildHdr (blk [] 0x7F000001 1 1481 0x1FED))
    (fun t => t.status = 0x80 ∧ t.fault = 2) = true := by decide
/-- IP-19. -/
theorem test_ipParseHdr : gives (exec .ipParseHdr (blk [0, 0x61, 0x62, 0x63, 0x64, 0x65, 0x66, 0x67, 0x68, 0x69, 0x6A, 0x6B, 0x6C,
      0x6D, 0x6E, 0x6F, 0x70, 0x71, 0x72, 0x73, 0x74] 0x1001 20 0 0))
    (fun t => t.res0 = 0x61626364 ∧ t.res1 = 0x65666768 ∧ t.res2 = 0x696A6B6C ∧ t.res3 = 0x6D6E6F70 ∧ t.res4 = 0x71727374) = true := by
  decide
/-- IP-26. -/
theorem test_ipSend : gives (exec .ipSend (up [] (blk [] 0x7F000001 6 0x1000 0)))
    (fun t => queued t.toNetblk =
      [[0x45, 0, 0, 0x14, 0, 0, 0, 0, 0x40, 6, 0x7C, 0xE2, 0x7F, 0, 0, 1, 0x7F, 0, 0, 1]]) = true := by decide
/-- IP-24. -/
theorem test_ipSend_operand_first : gives (exec .ipSend (blk [] 0x7F000001 0x100 0x1000 0))
    (fun t => t.status = 0x80 ∧ t.fault = 0x40) = true := by decide
/-- IP-30: the packet of the vector. -/
def fromTen : Bytes := [0x45, 0, 0, 0x1C, 0, 0, 0, 0, 0x40, 1, 0xF1, 0xDF, 0x0A, 0, 0, 1, 0x7F, 0, 0, 1, 8, 0, 0xF7, 0xFC, 0, 1, 0, 2]
theorem test_ipProcess : gives (exec .ipProcess (up [fromTen] State.reset))
    (fun t => t.res0 = 1 ∧ fifoState t.toNetblk = 0x80010100 ∧
      t.events = [.echoRequestRx 0x0A000001 1 2 0, .consume fromTen]) = true := by decide
/-- IP-28. -/
theorem test_ipProcess_empty : gives (exec .ipProcess (up [] State.reset))
    (fun t => t.status = 0 ∧ t.res0 = 0 ∧ t.events = []) = true := by decide

/-- IC-1. -/
theorem test_icmpInit : gives (exec .icmpInit State.reset) (fun t => t.status = 0 ∧ t.events = [.icmpReady]) = true := by decide
/-- IC-14: overlapping spans. -/
theorem test_icmpBuildReq : gives (exec .icmpBuildReq
      (blk [0, 0, 0, 0, 0, 0, 0, 0, 0, 0, 0, 0, 0, 0, 0, 0, 0xDE, 0xAD, 0xBE, 0xEF] 0x12340007 0x1010 4 0x100C))
    (fun t => t.res0 = 0xC ∧ t.res1 = 0x4827 ∧
      t.buf.slice 0x100C 12 = [8, 0, 0x48, 0x27, 0x12, 0x34, 0, 7, 0xDE, 0xAD, 0xBE, 0xEF]) = true := by decide
/-- IC-10. -/
theorem test_icmpBuildReq_fault : gives (exec .icmpBuildReq (blk [] 0x00010001 0x1000 0 0x1FF9))
    (fun t => t.status = 0x80 ∧ t.fault = 2) = true := by decide
/-- IC-7. -/
theorem test_icmpBuildRep : gives (exec .icmpBuildRep (blk [] 0xFFFF0000 0x1000 0 0x1200))
    (fun t => t.res1 = 0 ∧ t.buf.slice 0x1200 8 = [0, 0, 0, 0, 0xFF, 0xFF, 0, 0]) = true := by decide
/-- IC-17. -/
theorem test_icmpSendReq_no_route : gives (exec .icmpSendReq (up [] (blk [] 0x0A000001 0x00010001 0x1000 0)))
    (fun t => t.status = 1 ∧ fifoState t.toNetblk = 0x80000000) = true := by decide
/-- IC-19. -/
theorem test_icmpSendRep : gives (exec .icmpSendRep (up [] (blk [] 0x7F000001 0x00010001 0x1000 0)))
    (fun t => queued t.toNetblk = [[0x45, 0, 0, 0x1C, 0, 0, 0, 0, 0x40, 1, 0x7C, 0xDF, 0x7F, 0, 0, 1, 0x7F, 0, 0, 1,
      0, 0, 0xFF, 0xFD, 0, 1, 0, 1]]) = true := by decide
/-- IC-26: a wrong checksum and a code of 5 play no part. -/
theorem test_icmpHandle_request : gives (exec .icmpHandle (up [] (blk [8, 5, 0x12, 0x34, 0, 1, 0, 0] 0x7F000001 0x1000 8 0)))
    (fun t => t.res0 = 1 ∧ t.res1 = 0 ∧ queued t.toNetblk = [[0x45, 0, 0, 0x1C, 0, 0, 0, 0, 0x40, 1, 0x7C, 0xDF, 0x7F, 0, 0, 1,
      0x7F, 0, 0, 1, 0, 0, 0xFF, 0xFE, 0, 1, 0, 0]]) = true := by decide
/-- IC-25. -/
theorem test_icmpHandle_unknown : gives (exec .icmpHandle (up [] (blk [0x0D, 0, 0, 0, 0, 1, 0, 0] 0x7F000001 0x1000 8 0)))
    (fun t => t.res0 = 3 ∧ t.events = [.icmpUnknownRx 0x7F000001 13]) = true := by decide

/-- LB-11. -/
theorem test_rd8_window : gives (exec (.rd8 0x2002) (viewing (up [[0xA1, 0xA2, 0xA3]] State.reset)))
    (fun t => t.readData = [0xA3] ∧ t.fault = 0) = true := by decide
/-- LB-12. -/
theorem test_rd8_past_packet : gives (exec (.rd8 0x2003) (viewing (up [[0xA1, 0xA2, 0xA3]] State.reset)))
    (fun t => t.readData = [0] ∧ t.fault = 0x20) = true := by decide
/-- The write of FT-20. -/
theorem test_wr8 : gives (exec (.wr8 0x1000 0x5A) (halted State.reset)) (fun t => t.buf = [(0x1000, 0x5A)] ∧ t.fault = 1) = true := by
  decide
/-- FT-14. -/
theorem test_wr8_window : gives (exec (.wr8 0x2000 1) State.reset) (fun t => t.fault = 0x20) = true := by decide
/-- The read of CSUM_STATE in P1. -/
theorem test_rd32 : gives (exec (.rd32 0x30) { State.reset with csum := ⟨0x68AC, true, 0x9A⟩ })
    (fun t => t.readData = [0x019A68AC]) = true := by decide
/-- FT-12. -/
theorem test_rd32_misaligned : gives (exec (.rd32 2) State.reset) (fun t => t.readData = [0] ∧ t.fault = 0x20) = true := by decide
/-- FT-2. -/
theorem test_wr32_illegal_word : gives (exec (.wr32 0 0x110) State.reset)
    (fun t => t.status = 0x80 ∧ t.fault = 1 ∧ t.cmd = 0x110) = true := by decide
/-- FT-8. -/
theorem test_wr32_halted : gives (exec (.wr32 0 0x10) (halted State.reset))
    (fun t => t.status = 0x80 ∧ t.fault = 1 ∧ t.cmd = 0x10) = true := by decide

/-! ## States that meet the hypotheses of the statements, each clause at a boundary of its range -/

theorem witness_DecodeEncodeRoundTrip : WellFormed (.wr8 0xFFFF 0xFF) = true ∧ WellFormed (.wr32 0 0x46) = true := by decide
theorem witness_EncodeDecodeRoundTrip : decode 0xFFFFFFFFFFFF0003 = .ok (.wr32 0xFFFF 0xFFFFFFFF) := rfl

/-- The block after reset, its host about to issue `h`. -/
def issuing (h : Record) : State := { State.reset with pending := [.transaction h] }

theorem witness_HostTransactionFormat_refused : [(0x0000000000000004 : Record), 0x0000000100000002, 0x0000010000000001].all (fun h =>
    (issuing h).pending = .transaction h :: [] ∧
    (h.extractLsb' 2 14 ≠ 0 ∨ (h.extractLsb' 0 1 = 0 ∧ h.extractLsb' 32 32 ≠ 0) ∨
      (h.extractLsb' 0 2 = 1 ∧ h.extractLsb' 40 24 ≠ 0))) = true := by decide
theorem witness_HostTransactionFormat_rd8 : ∃ h : Record, (issuing h).pending = .transaction h :: [] ∧
    h.extractLsb' 2 14 = 0 ∧ h.extractLsb' 0 2 = 0 ∧ h.extractLsb' 32 32 = 0 := ⟨0x00000000FFFF0000, by decide⟩
theorem witness_HostTransactionFormat_wr8 : ∃ h : Record, (issuing h).pending = .transaction h :: [] ∧
    h.extractLsb' 2 14 = 0 ∧ h.extractLsb' 0 2 = 1 ∧ h.extractLsb' 40 24 = 0 := ⟨0x000000FFFFFF0001, by decide⟩
theorem witness_HostTransactionFormat_rd32 : ∃ h : Record, (issuing h).pending = .transaction h :: [] ∧
    h.extractLsb' 2 14 = 0 ∧ h.extractLsb' 0 2 = 2 ∧ h.extractLsb' 32 32 = 0 := ⟨0x00000000FFFF0002, by decide⟩
theorem witness_HostTransactionFormat_wr32 : ∃ h : Record, (issuing h).pending = .transaction h :: [] ∧
    h.extractLsb' 2 14 = 0 ∧ h.extractLsb' 0 2 = 3 := ⟨0xFFFFFFFFFFFF0003, by decide⟩
theorem witness_HostTransactionFormat_reads :
    (∃ t, exec (.rd8 0xFFFF) State.reset = .next t) ∧ (∃ t, exec (.rd32 0) State.reset = .next t) := ⟨⟨_, rfl⟩, ⟨_, rfl⟩⟩

theorem witness_StepRunsDecodedInstruction :
    (issuing 0x0000004500000003).pending = .transaction 0x0000004500000003 :: [] ∧
    decode 0x0000004500000003 = .ok .icmpHandle ∧ WellFormed .icmpHandle = true := ⟨rfl, rfl, rfl⟩
theorem witness_IdleAndResetInput :
    State.reset.pending = [] ∧ ({ State.reset with pending := [.reset] } : State).pending = .reset :: [] := ⟨rfl, rfl⟩
theorem witness_ResetValues : (4095 : Nat) < 4096 := by decide

/-- A block that holds a viewed packet of one byte, as after LB-16, with the trace of its past. -/
def oneQueued : State := { viewing (up [[0xA1]] State.reset) with events := [.enqueue [0xA1]] }

theorem inv_oneQueued : Inv oneQueued.toNetblk :=
  ⟨by decide, by decide, by decide, by decide, by decide, ⟨.ok, rfl⟩, by decide, by decide, by decide⟩
theorem inv_up_reset : Inv (up [] State.reset).toNetblk :=
  ⟨by decide, by decide, by decide, by decide, by decide, ⟨.ok, rfl⟩, by decide, by decide, by decide⟩
theorem inv_up_none (a0 a1 a2 a3 : Word) : Inv (up [] (blk [] a0 a1 a2 a3)).toNetblk :=
  let h := inv_up_reset
  ⟨h.slots_bounded, h.ring, h.view_has_packet, h.ready_or_empty, h.hold_clear, h.status_legal, h.fault_bits,
    h.faulted_has_fault, h.buf_wf⟩

theorem witness_StepKeepsInvariant :
    Inv oneQueued.toNetblk ∧ ∃ t, step oneQueued = .next t := ⟨inv_oneQueued, ⟨_, rfl⟩⟩
theorem witness_StepKeepsFifoTrace :
    Inv oneQueued.toNetblk ∧ TraceAgrees oneQueued.toNetblk ∧
    ∃ t, step { oneQueued with pending := [.transaction 0x0000002200000003] } = .next t :=
  ⟨inv_oneQueued, rfl, ⟨_, rfl⟩⟩
theorem witness_EventsOnlyGrow :
    (∀ rest, (issuing 0x0000004000000003).pending ≠ .reset :: rest) ∧ ∃ t, step (issuing 0x0000004000000003) = .next t :=
  ⟨fun _ h => (nomatch h), ⟨_, rfl⟩⟩

theorem witness_CommandWriteRunsCommand :
    commandWord .csumClear = some 0x10 ∧
    ∃ t, exec .csumClear State.reset = .next t ∧ t.cmd ≠ State.reset.cmd := ⟨rfl, ⟨_, rfl, by decide⟩⟩
theorem witness_RegisterRegion_command : decodeCommand 0x45 = some .icmpHandle := rfl
theorem witness_RegisterRegion_refused_write : [(0x04 : Addr), 0x34].all (fun a => a ∈ [(0x04 : Addr), 0x18, 0x1C, 0x20, 0x24, 0x28,
    0x2C, 0x30, 0x34]) = true := by decide
theorem witness_RegisterRegion_byte : (0x003F : Addr).toNat < 0x40 := by decide
theorem witness_RegisterRegion_misaligned : (0x003F : Addr).toNat < 0x40 ∧ (0x003F : Addr).toNat % 4 ≠ 0 := by decide
theorem witness_BufRegion : [(0x1000 : Addr), 0x1FFF].all (fun a => 0x1000 ≤ a.toNat ∧ a.toNat ≤ 0x1FFF) = true := by decide
theorem witness_RxwinRegion_stale : (0x25E9 : Addr).toNat = 0x2000 + 1513 ∧ 1513 < 1514 ∧ State.reset.view = false := by decide
theorem witness_RxwinRegion_past : (0x2001 : Addr).toNat = 0x2000 + 1 ∧ 1 < 1514 ∧ oneQueued.view = true ∧
    oneQueued.queue.slot[oneQueued.queue.rd].length ≤ 1 := by decide
theorem witness_RxwinRegion_byte : (0x2000 : Addr).toNat = 0x2000 + 0 ∧ 0 < 1514 ∧ oneQueued.view = true ∧
    0 < oneQueued.queue.slot[oneQueued.queue.rd].length := by decide
theorem witness_UnmappedRegion : [(0x0040 : Addr), 0x0FFF, 0x25EA, 0xFFFF].all (fun a =>
    (0x0040 ≤ a.toNat ∧ a.toNat ≤ 0x0FFF) ∨ 0x25EA ≤ a.toNat) = true := by decide
theorem witness_WhoWritesRegisters_arg : ∃ t, exec (.wr32 0x14 7) State.reset = .next t ∧ t.arg3 ≠ State.reset.arg3 :=
  ⟨_, rfl, by decide⟩
theorem witness_WhoWritesRegisters_res : (∃ t, exec (.wr32 0x14 7) State.reset = .next t) ∧ startedCommand (.wr32 0x14 7) = none ∧
    ∀ w, Instr.wr32 0x14 7 ≠ .wr32 0x00 w := ⟨⟨_, rfl⟩, rfl, by intro w h; injection h with h; exact absurd h (by decide)⟩

theorem witness_SourceSpans_empty : ∃ n : Nat, n = 0 := ⟨0, rfl⟩
theorem witness_SourceSpans_buf : ∃ a n : Nat, n ≠ 0 ∧ 0x1000 ≤ a ∧ a + n ≤ 0x2000 := ⟨0x1000, 0x1000, by decide⟩
theorem witness_SourceSpans_stale : ∃ (b : Netblk) (a n : Nat), n ≠ 0 ∧ 0x2000 ≤ a ∧ a < 0x2000 + 1514 ∧ b.view = false :=
  ⟨State.reset.toNetblk, 0x25E9, 1, by decide⟩
theorem witness_SourceSpans_head : ∃ (b : Netblk) (a n : Nat), n ≠ 0 ∧ 0x2000 ≤ a ∧ a < 0x2000 + 1514 ∧ b.view = true ∧
    a + n ≤ 0x2000 + b.queue.slot[b.queue.rd].length := ⟨oneQueued.toNetblk, 0x2000, 1, by decide⟩
theorem witness_SourceSpans_past_head : ∃ (b : Netblk) (a n : Nat), n ≠ 0 ∧ 0x2000 ≤ a ∧ a < 0x2000 + 1514 ∧ b.view = true ∧
    0x2000 + b.queue.slot[b.queue.rd].length < a + n := ⟨oneQueued.toNetblk, 0x2000, 2, by decide⟩
theorem witness_SourceSpans_bad : [(0x0FFF : Nat), 0x1FFF, 0x25EA].all (fun a =>
    2 ≠ 0 ∧ (a < 0x1000 ∨ (a < 0x2000 ∧ 0x2000 < a + 2) ∨ 0x2000 + 1514 ≤ a)) = true := by decide
theorem witness_DestinationSpans_in : ∃ a n : Nat, n = 0 ∨ (0x1000 ≤ a ∧ a + n ≤ 0x2000) := ⟨0x1FEC, 20, by decide⟩
theorem witness_DestinationSpans_out : ∃ a n : Nat, n ≠ 0 ∧ ¬ (0x1000 ≤ a ∧ a + n ≤ 0x2000) := ⟨0x1FED, 20, by decide⟩

/-- SV-4. -/
theorem witness_ChecksumVerifiesItself :
    2 % 2 = 0 ∧ 2 + 1 < ([8, 0, 0, 0, 0x12, 0x34, 0, 7] : Bytes).length ∧ byteAt [8, 0, 0, 0, 0x12, 0x34, 0, 7] 2 = 0 ∧
    byteAt [8, 0, 0, 0, 0x12, 0x34, 0, 7] (2 + 1) = 0 := by decide
/-- CSUM_CLEAR, CSUM_FINAL, ICMP_INIT and all that ask only for FAULT = 0. -/
theorem witness_not_halted : State.reset.fault = 0 ∧ (up [] State.reset).fault = 0 := ⟨rfl, rfl⟩
theorem witness_CsumFeedFeedsSpan_span : ∃ (s : State) (d : Bytes), s.fault = 0 ∧
    memRead s.toNetblk s.arg0.toNat s.arg1.toNat = .ok d := ⟨blk [0xFF] 0x1000 1 0 0, _, rfl, rfl⟩
theorem witness_CsumFeedFeedsSpan_fault : ∃ (s : State) (f : FaultCode), s.fault = 0 ∧
    memRead s.toNetblk s.arg0.toNat s.arg1.toNat = .error f := ⟨blk [] 0x1FFF 2 0 0, _, rfl, rfl⟩
theorem witness_CsumCalcReports_span : ∃ (s : State) (d : Bytes), s.fault = 0 ∧
    memRead s.toNetblk s.arg0.toNat s.arg1.toNat = .ok d := ⟨blk [] 0 0 0 0, _, rfl, rfl⟩
theorem witness_CsumCalcReports_fault : ∃ (s : State) (f : FaultCode), s.fault = 0 ∧
    memRead s.toNetblk s.arg0.toNat s.arg1.toNat = .error f := ⟨blk [] 0x2000 1 0 0, _, rfl, rfl⟩
theorem witness_NetworkLeavesAccumulator : Instr.icmpHandle ∈ [Instr.netInit, .ipIsLoopback, .ipBuildHdr, .ipParseHdr, .ipSend,
    .ipProcess, .icmpInit, .icmpBuildReq, .icmpBuildRep, .icmpSendReq, .icmpSendRep, .icmpHandle] := by decide

theorem witness_LbSendEnqueues_not_ready : State.reset.fault = 0 ∧ State.reset.netReady = false := ⟨rfl, rfl⟩
theorem witness_LbSendEnqueues_packet : ∃ (s : State) (p : Bytes), s.fault = 0 ∧ s.netReady = true ∧
    memRead s.toNetblk s.arg0.toNat s.arg1.toNat = .ok p := ⟨up [] (blk [] 0 0 0 0), _, rfl, rfl, rfl⟩
theorem witness_LbSendEnqueues_fault : ∃ (s : State) (f : FaultCode), s.fault = 0 ∧ s.netReady = true ∧
    memRead s.toNetblk s.arg0.toNat s.arg1.toNat = .error f := ⟨up [] (blk [] 0x1000 4097 0 0), _, rfl, rfl, rfl⟩
theorem witness_LbRecvPeeks_empty : ∃ s : State, s.fault = 0 ∧ s.netReady = true ∧ s.queue.count = 0 := ⟨up [] State.reset, by decide⟩
theorem witness_LbRecvPeeks_packet : oneQueued.fault = 0 ∧ oneQueued.netReady = true ∧ oneQueued.queue.count ≠ 0 ∧
    oneQueued.queue.slot[oneQueued.queue.rd].length ≤ 1514 := by decide
theorem witness_LbConsumeRemoves : oneQueued.fault = 0 ∧ oneQueued.netReady = true ∧ oneQueued.queue.count ≠ 0 := by decide
theorem witness_QueueIsFifo_room : oneQueued.queue.count.val < 16 ∧ oneQueued.queue.count.val ≠ 0 ∧ Inv oneQueued.toNetblk :=
  ⟨by decide, by decide, inv_oneQueued⟩
theorem witness_QueueIsFifo_empty : (up [] (blk [] 0 0 0 0)).queue.count.val = 0 ∧ Inv (up [] (blk [] 0 0 0 0)).toNetblk :=
  ⟨rfl, inv_up_none 0 0 0 0⟩
theorem witness_QueueCapacity : State.reset.queue.count = 0 ∧ (List.replicate 16 ([0xA1] : Bytes)).length = 16 ∧
    ∀ p ∈ List.replicate 16 ([0xA1] : Bytes), p.length ≤ 1514 := by decide
theorem witness_ViewLifetime_begins : ∃ t, exec .lbRecv (up [[0xA1]] State.reset) = .next t ∧
    (up [[0xA1]] State.reset).fault = 0 ∧ (up [[0xA1]] State.reset).netReady = true ∧
    (up [[0xA1]] State.reset).view = false ∧ t.view = true := ⟨_, rfl, rfl, rfl, rfl, rfl⟩
theorem witness_ViewLifetime_init : ∃ t, exec .netInit State.reset = .next t ∧ State.reset.fault = 0 ∧
    State.reset.netReady = false ∧ startedCommand .netInit = some .netInit := ⟨_, rfl, rfl, rfl, rfl⟩
theorem witness_ViewLifetime_ends : ∃ t, exec .lbConsume oneQueued = .next t ∧ oneQueued.fault = 0 ∧ oneQueued.netReady = true ∧
    startedCommand .lbConsume = some .lbConsume ∧ oneQueued.view = true ∧ t.view = false := ⟨_, rfl, rfl, rfl, rfl, rfl, rfl⟩

theorem witness_HeaderLayout : (1480 : Nat) ≤ 1480 := by decide
theorem witness_NetInitBringsUp : State.reset.fault = 0 ∧ State.reset.netReady = false ∧
    (up [] State.reset).fault = 0 ∧ (up [] State.reset).netReady = true := ⟨rfl, rfl, rfl, rfl⟩
theorem witness_NetInitBringsUp_sets : ∃ t, exec .netInit State.reset = .next t ∧ State.reset.netReady = false ∧
    t.netReady = true := ⟨_, rfl, rfl, rfl⟩
theorem witness_IpIsLoopbackTests_in : [(0x7F000000 : Word), 0x7FFFFFFF].all (fun a =>
    (blk [] a 0 0 0).fault = 0 ∧ (blk [] a 0 0 0).arg0.toNat / 2 ^ 24 = 127) = true := by decide
theorem witness_IpIsLoopbackTests_out : [(0x7EFFFFFF : Word), 0x80000000].all (fun a =>
    (blk [] a 0 0 0).fault = 0 ∧ (blk [] a 0 0 0).arg0.toNat / 2 ^ 24 ≠ 127) = true := by decide
theorem witness_IpBuildHdrStores_operand : ∃ s : State, s.fault = 0 ∧ s.arg1.extractLsb' 8 24 ≠ 0 :=
  ⟨blk [] 0x7F000001 0x100 0 0x1100, by decide⟩
theorem witness_IpBuildHdrStores_address : [(0x0FFF : Word), 0x1FED].all (fun a =>
    (blk [] 0 0xFF 0 a).fault = 0 ∧ (blk [] 0 0xFF 0 a).arg1.extractLsb' 8 24 = 0 ∧
    ((blk [] 0 0xFF 0 a).arg3.toNat < 0x1000 ∨ 0x2000 < (blk [] 0 0xFF 0 a).arg3.toNat + 20)) = true := by decide
theorem witness_IpBuildHdrStores_long : ∃ s : State, s.fault = 0 ∧ s.arg1.extractLsb' 8 24 = 0 ∧ 0x1000 ≤ s.arg3.toNat ∧
    s.arg3.toNat + 20 ≤ 0x2000 ∧ 1500 < 20 + s.arg2.toNat := ⟨blk [] 0 1 1481 0x1FEC, by decide⟩
theorem witness_IpBuildHdrStores_header : ∃ s : State, s.fault = 0 ∧ s.arg1.extractLsb' 8 24 = 0 ∧ 0x1000 ≤ s.arg3.toNat ∧
    s.arg3.toNat + 20 ≤ 0x2000 ∧ 20 + s.arg2.toNat ≤ 1500 := ⟨blk [] 0 1 1480 0x1000, by decide⟩
theorem witness_IpParseHdrReports_short : ∃ (s : State) (d : Bytes), s.fault = 0 ∧
    memRead s.toNetblk s.arg0.toNat s.arg1.toNat = .ok d ∧ d.length < 20 :=
  ⟨blk (List.replicate 19 0x45) 0x1000 19 0 0, List.replicate 19 0x45, rfl, rfl, by decide⟩
theorem witness_IpParseHdrReports_header : ∃ (s : State) (d : Bytes), s.fault = 0 ∧
    memRead s.toNetblk s.arg0.toNat s.arg1.toNat = .ok d ∧ 20 ≤ d.length :=
  ⟨blk (List.replicate 20 0x45) 0x1000 20 0 0, List.replicate 20 0x45, rfl, rfl, by decide⟩
theorem witness_IpParseHdrReports_fault : ∃ (s : State) (f : FaultCode), s.fault = 0 ∧
    memRead s.toNetblk s.arg0.toNat s.arg1.toNat = .error f := ⟨blk [] 0x0FFF 20 0 0, _, rfl, rfl⟩
theorem witness_IpSendSends_operand : ∃ s : State, s.fault = 0 ∧ s.arg1.extractLsb' 8 24 ≠ 0 :=
  ⟨blk [] 0x7F000001 0x100 0x1000 0, by decide⟩
theorem witness_IpSendSends_not_ready : ∃ s : State, s.fault = 0 ∧ s.arg1.extractLsb' 8 24 = 0 ∧ s.netReady = false :=
  ⟨blk [] 0x7F000001 0xFF 0x1000 0, by decide⟩
theorem witness_IpSendSends_payload : ∃ (s : State) (d : Bytes), s.fault = 0 ∧ s.arg1.extractLsb' 8 24 = 0 ∧ s.netReady = true ∧
    memRead s.toNetblk s.arg2.toNat s.arg3.toNat = .ok d := ⟨up [] (blk [] 0x7F000001 6 0x1000 0), _, rfl, by decide, rfl, rfl⟩
theorem witness_IpSendSends_fault : ∃ (s : State) (f : FaultCode), s.fault = 0 ∧ s.arg1.extractLsb' 8 24 = 0 ∧ s.netReady = true ∧
    memRead s.toNetblk s.arg2.toNat s.arg3.toNat = .error f := ⟨up [] (blk [] 0x7F000001 6 0x5000 1), _, rfl, by decide, rfl, rfl⟩
theorem witness_DrainIteration_consumed : oneQueued.queue.count ≠ 0 ∧ oneQueued.queue.slot[oneQueued.queue.rd].length < 20 := by decide
theorem witness_DrainIteration_handled : (up [fromTen] State.reset).queue.count ≠ 0 ∧
    20 ≤ (up [fromTen] State.reset).queue.slot[(up [fromTen] State.reset).queue.rd].length ∧
    byteAt (up [fromTen] State.reset).queue.slot[(up [fromTen] State.reset).queue.rd] 9 = 1 := by decide
theorem witness_DrainAnswersOnlyRequests : (up [fromTen] State.reset).queue.count ≠ 0 := by decide
theorem witness_IpProcessDrains : oneQueued.fault = 0 ∧ oneQueued.netReady = true ∧ Inv oneQueued.toNetblk :=
  ⟨rfl, rfl, inv_oneQueued⟩
theorem witness_Routing_no_route : (0x0A000001 : Word).extractLsb' 24 8 ≠ 127 := by decide
theorem witness_Routing_loopback : Inv oneQueued.toNetblk ∧ (List.replicate 1480 (0 : Byte)).length ≤ 1480 ∧
    oneQueued.queue.count.val < 16 := ⟨inv_oneQueued, List.length_replicate.le, by decide⟩

theorem witness_EchoFrame : (8 : Byte) = 8 ∨ (8 : Byte) = 0 := Or.inl rfl
/-- IC-7 is the zero case, IC-3's identifier with no data the other. -/
theorem witness_ReplyChecksum : be16 (buildEcho 0 0xFFFF0000 []) 2 = 0 ∧ be16 (buildEcho 0 0x12340007 []) 2 ≠ 0 := by decide
theorem witness_IcmpBuildStores_fault : ∃ (s : State) (f : FaultCode), s.fault = 0 ∧
    memRead s.toNetblk s.arg1.toNat s.arg2.toNat = .error f := ⟨blk [] 0 0x1FFF 2 0x1200, _, rfl, rfl⟩
theorem witness_IcmpBuildStores_address : ∃ (s : State) (d : Bytes), s.fault = 0 ∧
    memRead s.toNetblk s.arg1.toNat s.arg2.toNat = .ok d ∧ 0x2000 < s.arg3.toNat + (8 + s.arg2.toNat) :=
  ⟨blk [] 0 0x1000 0 0x1FF9, _, rfl, rfl, by decide⟩
theorem witness_IcmpBuildStores_long : ∃ (s : State) (d : Bytes), s.fault = 0 ∧
    memRead s.toNetblk s.arg1.toNat s.arg2.toNat = .ok d ∧ 0x1000 ≤ s.arg3.toNat ∧ s.arg3.toNat + (8 + s.arg2.toNat) ≤ 0x2000 ∧
    1480 < 8 + s.arg2.toNat := ⟨blk [] 0 0x1000 1473 0x1200, _, rfl, rfl, by decide⟩
theorem witness_IcmpBuildStores_frame : ∃ (s : State) (d : Bytes), s.fault = 0 ∧
    memRead s.toNetblk s.arg1.toNat s.arg2.toNat = .ok d ∧ 0x1000 ≤ s.arg3.toNat ∧ s.arg3.toNat + (8 + s.arg2.toNat) ≤ 0x2000 ∧
    8 + s.arg2.toNat ≤ 1480 := ⟨blk [] 0 0x1000 1472 0x1200, _, rfl, rfl, by decide⟩
theorem witness_IcmpSendSends_not_ready : State.reset.fault = 0 ∧ State.reset.netReady = false := ⟨rfl, rfl⟩
theorem witness_IcmpSendSends_data : ∃ (s : State) (d : Bytes), s.fault = 0 ∧ s.netReady = true ∧
    memRead s.toNetblk s.arg2.toNat s.arg3.toNat = .ok d := ⟨up [] (blk [] 0x7F000001 1 0x1000 0), _, rfl, rfl, rfl⟩
theorem witness_IcmpSendSends_fault : ∃ (s : State) (f : FaultCode), s.fault = 0 ∧ s.netReady = true ∧
    memRead s.toNetblk s.arg2.toNat s.arg3.toNat = .error f := ⟨up [] (blk [] 0x7F000001 1 0x5000 1), _, rfl, rfl, rfl⟩
theorem witness_IcmpHandleHandles_not_ready : State.reset.fault = 0 ∧ State.reset.netReady = false := ⟨rfl, rfl⟩
theorem witness_IcmpHandleHandles_short : ∃ (s : State) (d : Bytes), s.fault = 0 ∧ s.netReady = true ∧
    memRead s.toNetblk s.arg1.toNat s.arg2.toNat = .ok d ∧ d.length < 8 :=
  ⟨up [] (blk [8, 0, 0, 0, 0, 1, 0] 0 0x1000 7 0), [8, 0, 0, 0, 0, 1, 0], rfl, rfl, rfl, by decide⟩
theorem witness_IcmpHandleHandles_request : ∃ (s : State) (d : Bytes), s.fault = 0 ∧ s.netReady = true ∧
    memRead s.toNetblk s.arg1.toNat s.arg2.toNat = .ok d ∧ 8 ≤ d.length ∧ byteAt d 0 = 8 :=
  ⟨up [] (blk [8, 0, 0, 0, 0, 1, 0, 0] 0 0x1000 8 0), [8, 0, 0, 0, 0, 1, 0, 0], rfl, rfl, rfl, by decide, rfl⟩
theorem witness_IcmpHandleHandles_reply : ∃ (s : State) (d : Bytes), s.fault = 0 ∧ s.netReady = true ∧
    memRead s.toNetblk s.arg1.toNat s.arg2.toNat = .ok d ∧ 8 ≤ d.length ∧ byteAt d 0 = 0 :=
  ⟨up [] (blk [0, 0, 0, 0, 0, 1, 0, 0] 0 0x1000 8 0), [0, 0, 0, 0, 0, 1, 0, 0], rfl, rfl, rfl, by decide, rfl⟩
theorem witness_IcmpHandleHandles_unknown : ∃ (s : State) (d : Bytes), s.fault = 0 ∧ s.netReady = true ∧
    memRead s.toNetblk s.arg1.toNat s.arg2.toNat = .ok d ∧ 8 ≤ d.length ∧ byteAt d 0 ≠ 8 ∧ byteAt d 0 ≠ 0 :=
  ⟨up [] (blk [13, 0, 0, 0, 0, 1, 0, 0] 0 0x1000 8 0), [13, 0, 0, 0, 0, 1, 0, 0], rfl, rfl, rfl, by decide, by decide, by decide⟩
theorem witness_IcmpHandleHandles_fault : ∃ (s : State) (f : FaultCode), s.fault = 0 ∧ s.netReady = true ∧
    memRead s.toNetblk s.arg1.toNat s.arg2.toNat = .error f := ⟨up [] (blk [] 0 0x1FFF 8 0), _, rfl, rfl, rfl⟩
theorem witness_EchoRoundTrip :
    Inv (up [] (blk [] 0x7F000001 0x12340007 0x1000 1472)).toNetblk ∧
    (up [] (blk [] 0x7F000001 0x12340007 0x1000 1472)).fault = 0 ∧
    (up [] (blk [] 0x7F000001 0x12340007 0x1000 1472)).netReady = true ∧
    (up [] (blk [] 0x7F000001 0x12340007 0x1000 1472)).queue.count = 0 ∧
    (up [] (blk [] 0x7F000001 0x12340007 0x1000 1472)).arg0.extractLsb' 24 8 = 127 ∧
    ∃ d, memRead (up [] (blk [] 0x7F000001 0x12340007 0x1000 1472)).toNetblk 0x1000 1472 = .ok d ∧ d.length ≤ 1472 :=
  ⟨inv_up_none _ _ _ _, rfl, rfl, by decide, by decide, ⟨_, rfl, by simp [Memory.slice]⟩⟩

theorem witness_IllegalWordFaults : State.reset.fault = 0 ∧ (0x110 : Word).extractLsb' 8 24 ≠ 0 ∧
    (0x46 : Word) ∉ legalCommandWords := by decide
theorem witness_CommandFaultIsPrecise : commandWord .lbSend = some 0x20 ∧ State.reset.fault = 0 ∧
    ∃ t, exec .lbSend State.reset = .next t ∧ t.fault ≠ 0 := ⟨rfl, rfl, ⟨_, rfl, by decide⟩⟩
theorem witness_HaltedBlock : (halted State.reset).fault ≠ 0 ∧ commandWord .ipProcess = some 0x35 ∧ commandWord (.rd8 0x2000) = none ∧
    (∀ w, Instr.rd8 0x2000 ≠ .wr32 0x00 w) ∧ Instr.rd8 0x2000 ≠ .rd32 0x2C :=
  ⟨by decide, rfl, rfl, fun _ h => Instr.noConfusion h, fun h => Instr.noConfusion h⟩
theorem witness_CommandFaultIsPrecise_illegal : ∃ t, exec (.wr32 0x00 0x14) State.reset = .next t ∧ State.reset.fault = 0 ∧
    t.fault ≠ 0 := ⟨_, rfl, rfl, by decide⟩
theorem witness_HaltedBlock_step : ∃ t, (halted State.reset).fault ≠ 0 ∧ (∀ rest, (halted State.reset).pending ≠ .reset :: rest) ∧
    step (halted State.reset) = .next t := ⟨_, by decide, fun _ h => (nomatch h), rfl⟩
theorem witness_FaultIsSticky : (∀ rest, (halted State.reset).pending ≠ .reset :: rest) ∧ ∃ t, step (halted State.reset) = .next t :=
  ⟨fun _ h => (nomatch h), ⟨_, rfl⟩⟩

end Sys2Proof.Tests
end

/-! ## What a register read gives, and BUF after reset (R21, R34, R35) -/

namespace Sys2Proof.Machine

open Sys2Proof

/-- After reset BUF lists nothing, so each of its addresses reads as `buf_init`'s byte (R10, R35). -/
@[simp] theorem read_reset_buf (a : Nat) : Netblk.reset.buf.read a = Config.bufInit (a - Config.bufBase) := rfl

/-- Settles O8: the reset state is a literal, and BUF's clause is what an unwritten address reads as. -/
theorem resetValues : Obligations.ResetValues := by
  have hbuf : ∀ i : Nat, State.reset.buf.read (0x1000 + i) = Config.bufInit i := fun i => by
    simp [Config.bufBase]
  exact ⟨rfl, rfl, rfl, rfl, rfl, rfl, rfl, rfl, rfl, rfl, rfl, rfl, rfl, rfl, rfl, rfl, rfl, rfl, rfl, rfl, rfl,
    fun i _ => hbuf i⟩

/-- R38: a read at a register's address returns the register and changes nothing else. -/
theorem exec_rd32_of_regAt {a : Addr} {r : Reg} (h : regAt a = some r) (s : State) :
    exec (.rd32 a) s = .next (s.returned (readReg s.toNetblk r)) := by
  show finishRead (readWord s.toNetblk a) s = _
  simp only [readWord, h]
  rfl

/-- CMD is the only register at address 0 (R21). -/
theorem regAt_eq_cmd_iff (a : Addr) : regAt a = some .cmd ↔ a = 0 := by
  constructor
  · intro h
    unfold regAt at h
    split at h <;> cases h
    next h0 => exact BitVec.eq_of_toNat_eq h0
  · rintro rfl
    rfl

/-! ## The bits of the two views (R27, R28) -/

theorem extractLsb'_toNat_eq_div_mod {m : Nat} (v : BitVec m) (k n : Nat) :
    (v.extractLsb' k n).toNat = v.toNat / 2 ^ k % 2 ^ n := by
  rw [BitVec.extractLsb'_toNat, Nat.shiftRight_eq_div_pow]

theorem extractLsb'_eq_iff {m : Nat} (v : BitVec m) (k n : Nat) (x : BitVec n) :
    v.extractLsb' k n = x ↔ v.toNat / 2 ^ k % 2 ^ n = x.toNat := by
  rw [← BitVec.toNat_inj, extractLsb'_toNat_eq_div_mod]

theorem getLsbD_eq_iff {m : Nat} (v : BitVec m) (k : Nat) (x : Bool) :
    v.getLsbD k = x ↔ v.toNat / 2 ^ k % 2 = x.toNat := by
  rw [BitVec.getLsbD, Nat.testBit_eq_decide_div_mod_eq]
  rcases Nat.mod_two_eq_zero_or_one (v.toNat / 2 ^ k) with h | h <;> cases x <;> simp [h]

/-- R27: the fields of CSUM_STATE do not overlap, and all of them fit in 25 bits. -/
theorem csumState_toNat (a : Accum) :
    (csumState a).toNat = a.acc.toNat + a.hold.toNat * 2 ^ 16 + a.odd.toNat * 2 ^ 24 := by
  have hacc := a.acc.isLt
  have hhold := a.hold.isLt
  have hodd := a.odd.toNat_lt
  rw [csumState, BitVec.toNat_ofNat]
  exact Nat.mod_eq_of_lt (by omega)

/-- R28: the fields of FIFO_STATE do not overlap, and all of them fit in 32 bits. -/
theorem fifoState_toNat (b : Netblk) :
    (fifoState b).toNat = b.queue.count.val + b.queue.rd.val * 2 ^ 8 + b.queue.wr.val * 2 ^ 16 +
      b.view.toNat * 2 ^ 24 + b.netReady.toNat * 2 ^ 31 := by
  have hcount := b.queue.count.isLt
  have hrd := b.queue.rd.isLt
  have hwr := b.queue.wr.isLt
  have hview := b.view.toNat_lt
  have hready := b.netReady.toNat_lt
  rw [fifoState, BitVec.toNat_ofNat]
  exact Nat.mod_eq_of_lt (by omega)

/-- R27: each field of the accumulator stands at its place in CSUM_STATE. -/
theorem csumState_fields (a : Accum) :
    (csumState a).extractLsb' 0 16 = a.acc ∧ (csumState a).extractLsb' 16 8 = a.hold ∧
    (csumState a).getLsbD 24 = a.odd ∧ (csumState a).extractLsb' 25 7 = 0 := by
  have hacc := a.acc.isLt
  have hhold := a.hold.isLt
  have hodd := a.odd.toNat_lt
  simp only [extractLsb'_eq_iff, getLsbD_eq_iff, csumState_toNat, BitVec.ofNat_eq_ofNat, BitVec.toNat_ofNat]
  omega

/-- R28: each field of the queue and each flag stands at its place in FIFO_STATE. -/
theorem fifoState_fields (b : Netblk) :
    ((fifoState b).extractLsb' 0 5).toNat = b.queue.count.val ∧ (fifoState b).extractLsb' 5 3 = 0 ∧
    ((fifoState b).extractLsb' 8 4).toNat = b.queue.rd.val ∧ (fifoState b).extractLsb' 12 4 = 0 ∧
    ((fifoState b).extractLsb' 16 4).toNat = b.queue.wr.val ∧ (fifoState b).extractLsb' 20 4 = 0 ∧
    (fifoState b).getLsbD 24 = b.view ∧ (fifoState b).extractLsb' 25 6 = 0 ∧
    (fifoState b).getLsbD 31 = b.netReady := by
  have hcount := b.queue.count.isLt
  have hrd := b.queue.rd.isLt
  have hwr := b.queue.wr.isLt
  have hview := b.view.toNat_lt
  have hready := b.netReady.toNat_lt
  simp only [extractLsb'_eq_iff, extractLsb'_toNat_eq_div_mod, getLsbD_eq_iff, fifoState_toNat,
    BitVec.ofNat_eq_ofNat, BitVec.toNat_ofNat]
  omega

/-- Settles O19: the two views are register reads, and each field lies in bits of its own. -/
theorem hiddenStateViews : Obligations.HiddenStateViews := fun s =>
  ⟨⟨csumState s.csum, exec_rd32_of_regAt (r := .csumState) rfl s, csumState_fields s.csum⟩,
   ⟨fifoState s.toNetblk, exec_rd32_of_regAt (r := .fifoState) rfl s, fifoState_fields s.toNetblk⟩⟩

/-! ## What no command's effects change (R22, R24, R26): CMD, the operands and FAULT -/

/-- `c` agrees with `b` in CMD, ARG0 to ARG3 and FAULT, which only the port, the command sequence and a fault write. -/
structure SameControl (b c : Netblk) : Prop where
  cmd : c.cmd = b.cmd
  arg0 : c.arg0 = b.arg0
  arg1 : c.arg1 = b.arg1
  arg2 : c.arg2 = b.arg2
  arg3 : c.arg3 = b.arg3
  fault : c.fault = b.fault

namespace SameControl

theorem refl (b : Netblk) : SameControl b b := ⟨rfl, rfl, rfl, rfl, rfl, rfl⟩

theorem trans {b c d : Netblk} (h : SameControl b c) (k : SameControl c d) : SameControl b d :=
  ⟨k.cmd.trans h.cmd, k.arg0.trans h.arg0, k.arg1.trans h.arg1, k.arg2.trans h.arg2, k.arg3.trans h.arg3,
    k.fault.trans h.fault⟩

theorem setStatus (b : Netblk) (x : Status) : SameControl b (b.setStatus x) := ⟨rfl, rfl, rfl, rfl, rfl, rfl⟩

theorem emit (b : Netblk) (e : Event) : SameControl b (Machine.emit e b) := ⟨rfl, rfl, rfl, rfl, rfl, rfl⟩

theorem lbEnqueue (p : Bytes) (b : Netblk) : SameControl b (lbEnqueue p b).1 := by
  rcases lbEnqueue_cases p b with ⟨-, h⟩ | ⟨-, -, h⟩ | ⟨-, -, h⟩ <;> rw [h]
  · exact refl b
  · exact refl b
  · exact ⟨rfl, rfl, rfl, rfl, rfl, rfl⟩

theorem lbConsume (b : Netblk) : SameControl b (lbConsume b).1 := by
  rcases lbConsume_cases b with ⟨-, h⟩ | ⟨-, h⟩ <;> rw [h] <;> exact ⟨rfl, rfl, rfl, rfl, rfl, rfl⟩

theorem ipSend (dst : Word) (proto : Byte) (payload : Bytes) (b : Netblk) :
    SameControl b (ipSend dst proto payload b).1 := by
  rcases ipSend_cases dst proto payload b with ⟨-, h⟩ | ⟨-, -, h⟩ | ⟨-, -, h⟩ <;> rw [h]
  · exact refl b
  · exact refl b
  · exact lbEnqueue _ b

theorem icmpSend (type : Byte) (dst idseq : Word) (data : Bytes) (b : Netblk) :
    SameControl b (icmpSend type dst idseq data b).1 := by
  rcases icmpSend_cases type dst idseq data b with ⟨-, h⟩ | ⟨-, h⟩ <;> rw [h]
  · exact refl b
  · exact ipSend _ _ _ b

theorem icmpHandle (src : Word) (d : Bytes) (b : Netblk) : SameControl b (icmpHandle src d b).1 := by
  rcases icmpHandle_cases src d b with ⟨-, h⟩ | ⟨-, -, h⟩ | ⟨-, -, h⟩ | ⟨-, -, -, h⟩ <;> rw [h]
  · exact refl b
  · exact (emit b _).trans (icmpSend _ _ _ _ _)
  · exact emit b _
  · exact emit b _

theorem drainOne (b : Netblk) : SameControl b (drainOne b) := by
  simp only [Machine.drainOne]
  split
  · exact (icmpHandle _ _ b).trans (lbConsume _)
  · exact lbConsume b

theorem drainLoop (fuel k : Nat) (b : Netblk) : SameControl b (drainLoop fuel k b).1 := by
  induction fuel generalizing k b with
  | zero => exact refl b
  | succ fuel ih =>
    rw [drainLoop_succ]
    split
    · exact refl b
    · exact (drainOne b).trans (ih (k + 1) _)

theorem ipProcess (b : Netblk) : SameControl b (ipProcess b).1 :=
  (drainLoop (drainFuel b) 0 b).trans ⟨rfl, rfl, rfl, rfl, rfl, rfl⟩

end SameControl

/-! ## The commands as one table of bodies (R60, R63) -/

/-- The checks and effects of each command, R63 steps 3 and 4. A host transaction is no command: its row is a filler
that `exec_of_commandWord` never meets. -/
def commandBody : Instr → Netblk → Except FaultCode Netblk
  | .csumClear => csumClearBody
  | .csumFeed => csumFeedBody
  | .csumFinal => csumFinalBody
  | .csumCalc => csumCalcBody
  | .lbSend => lbSendBody
  | .lbRecv => lbRecvBody
  | .lbConsume => lbConsumeBody
  | .netInit => netInitBody
  | .ipIsLoopback => ipIsLoopbackBody
  | .ipBuildHdr => ipBuildHdrBody
  | .ipParseHdr => ipParseHdrBody
  | .ipSend => ipSendBody
  | .ipProcess => ipProcessBody
  | .icmpInit => icmpInitBody
  | .icmpBuildReq => icmpBuildBody Config.icmpEchoRequest
  | .icmpBuildRep => icmpBuildBody Config.icmpEchoReply
  | .icmpSendReq => icmpSendBody Config.icmpEchoRequest
  | .icmpSendRep => icmpSendBody Config.icmpEchoReply
  | .icmpHandle => icmpHandleBody
  | .rd8 _ | .wr8 _ _ | .rd32 _ | .wr32 _ _ => fun _ => .error .illegal

/-- R63: every command is the common sequence around its body. -/
theorem exec_of_commandWord {i : Instr} {w : Word} (h : commandWord i = some w) (s : State) :
    exec i s = runCommand w (commandBody i) s := by
  cases i <;> cases h <;> rfl

/-- A computation that succeeds does so step by step. -/
theorem bind_eq_ok {α β : Type} {x : Except FaultCode α} {f : α → Except FaultCode β} {c : β}
    (h : (x >>= f) = .ok c) : ∃ a, x = .ok a ∧ f a = .ok c := by
  cases x with
  | error e => cases h
  | ok a => exact ⟨a, rfl, h⟩

section Bodies

variable {b c : Netblk}

theorem csumFeedBody_sameControl (h : csumFeedBody b = .ok c) : SameControl b c := by
  obtain ⟨d, -, h⟩ := bind_eq_ok h
  cases h
  exact ⟨rfl, rfl, rfl, rfl, rfl, rfl⟩

theorem csumCalcBody_sameControl (h : csumCalcBody b = .ok c) : SameControl b c := by
  obtain ⟨d, -, h⟩ := bind_eq_ok h
  cases h
  exact ⟨rfl, rfl, rfl, rfl, rfl, rfl⟩

theorem lbSendBody_sameControl (h : lbSendBody b = .ok c) : SameControl b c := by
  obtain ⟨-, -, h⟩ := bind_eq_ok h
  obtain ⟨p, -, h⟩ := bind_eq_ok h
  cases h
  exact (SameControl.lbEnqueue p b).trans (.setStatus _ _)

theorem lbRecvBody_sameControl (h : lbRecvBody b = .ok c) : SameControl b c := by
  obtain ⟨-, -, h⟩ := bind_eq_ok h
  split at h <;> cases h <;> exact ⟨rfl, rfl, rfl, rfl, rfl, rfl⟩

theorem lbConsumeBody_sameControl (h : lbConsumeBody b = .ok c) : SameControl b c := by
  obtain ⟨-, -, h⟩ := bind_eq_ok h
  cases h
  exact (SameControl.lbConsume b).trans (.setStatus _ _)

theorem netInitBody_sameControl (h : netInitBody b = .ok c) : SameControl b c := by
  unfold netInitBody at h
  split at h <;> cases h
  exact ⟨rfl, rfl, rfl, rfl, rfl, rfl⟩

/-- The header's bytes go to BUF and RES0 and are not looked at here. -/
theorem ipBuildHdrBody_sameControl (h : ipBuildHdrBody b = .ok c) : SameControl b c := by
  obtain ⟨proto, -, h⟩ := bind_eq_ok h
  obtain ⟨-, -, h⟩ := bind_eq_ok h
  generalize buildHeader b.arg0 proto b.arg2.toNat = header at h
  split at h <;> cases h <;> exact ⟨rfl, rfl, rfl, rfl, rfl, rfl⟩

theorem ipParseHdrBody_sameControl (h : ipParseHdrBody b = .ok c) : SameControl b c := by
  obtain ⟨d, -, h⟩ := bind_eq_ok h
  split at h <;> cases h <;> exact ⟨rfl, rfl, rfl, rfl, rfl, rfl⟩

theorem ipSendBody_sameControl (h : ipSendBody b = .ok c) : SameControl b c := by
  obtain ⟨proto, -, h⟩ := bind_eq_ok h
  obtain ⟨-, -, h⟩ := bind_eq_ok h
  obtain ⟨d, -, h⟩ := bind_eq_ok h
  cases h
  exact (SameControl.ipSend b.arg0 proto d b).trans (.setStatus _ _)

theorem ipProcessBody_sameControl (h : ipProcessBody b = .ok c) : SameControl b c := by
  obtain ⟨-, -, h⟩ := bind_eq_ok h
  cases h
  exact (SameControl.ipProcess b).trans ⟨rfl, rfl, rfl, rfl, rfl, rfl⟩

theorem icmpBuildBody_sameControl {type : Byte} (h : icmpBuildBody type b = .ok c) : SameControl b c := by
  obtain ⟨d, -, h⟩ := bind_eq_ok h
  obtain ⟨-, -, h⟩ := bind_eq_ok h
  split at h <;> cases h <;> exact ⟨rfl, rfl, rfl, rfl, rfl, rfl⟩

theorem icmpSendBody_sameControl {type : Byte} (h : icmpSendBody type b = .ok c) : SameControl b c := by
  obtain ⟨-, -, h⟩ := bind_eq_ok h
  obtain ⟨d, -, h⟩ := bind_eq_ok h
  cases h
  exact (SameControl.icmpSend type b.arg0 b.arg1 d b).trans (.setStatus _ _)

theorem icmpHandleBody_sameControl (h : icmpHandleBody b = .ok c) : SameControl b c := by
  obtain ⟨-, -, h⟩ := bind_eq_ok h
  obtain ⟨d, -, h⟩ := bind_eq_ok h
  cases h
  exact (SameControl.icmpHandle b.arg0 d b).trans ⟨rfl, rfl, rfl, rfl, rfl, rfl⟩

/-- R22, R24, R26: a command that ends leaves CMD, its operands and FAULT as it met them. -/
theorem commandBody_sameControl {i : Instr} (h : commandBody i b = .ok c) : SameControl b c := by
  cases i with
  | csumClear | csumFinal | ipIsLoopback | icmpInit => cases h; exact ⟨rfl, rfl, rfl, rfl, rfl, rfl⟩
  | csumFeed => exact csumFeedBody_sameControl h
  | csumCalc => exact csumCalcBody_sameControl h
  | lbSend => exact lbSendBody_sameControl h
  | lbRecv => exact lbRecvBody_sameControl h
  | lbConsume => exact lbConsumeBody_sameControl h
  | netInit => exact netInitBody_sameControl h
  | ipBuildHdr => exact ipBuildHdrBody_sameControl h
  | ipParseHdr => exact ipParseHdrBody_sameControl h
  | ipSend => exact ipSendBody_sameControl h
  | ipProcess => exact ipProcessBody_sameControl h
  | icmpBuildReq | icmpBuildRep => exact icmpBuildBody_sameControl h
  | icmpSendReq | icmpSendRep => exact icmpSendBody_sameControl h
  | icmpHandle => exact icmpHandleBody_sameControl h
  | rd8 | wr8 | rd32 | wr32 => cases h

end Bodies

/-! ## CMD under a command write and under the other transactions (R22) -/

/-- R63 step 2: CMD holds the word written whether the command ends, faults or meets a halted block. -/
theorem commandSequence_cmd {body : Netblk → Except FaultCode Netblk}
    (hbody : ∀ b c, body b = .ok c → c.cmd = b.cmd) (w : Word) (b : Netblk) :
    (commandSequence w body b).cmd = w := by
  rcases commandSequence_cases w body b with ⟨-, h⟩ | ⟨-, f, -, h⟩ | ⟨-, c, hc, h⟩
  · rw [h]
  · rw [h]
  · rw [h, hbody _ c hc]

/-- R60: a legal command word is the word of the command it decodes to. -/
theorem commandWord_of_opcodeMap {op : Byte} {i : Instr} (h : opcodeMap op = some i) :
    commandWord i = some (op.setWidth 32) := by
  unfold opcodeMap at h
  split at h <;> cases h
  all_goals
    next hop => rw [← BitVec.ofNat_toNat, hop]; rfl

/-- R58: bits [31:8] of a legal word are zero, so its opcode is all of it. -/
theorem commandWord_of_decodeCommand {w : Word} {i : Instr} (h : decodeCommand w = some i) :
    commandWord i = some w := by
  unfold decodeCommand at h
  split at h
  · next hzero =>
    have hw : (w.extractLsb' 0 8).setWidth 32 = w := by
      simp only [extractLsb'_eq_iff, BitVec.ofNat_eq_ofNat, BitVec.toNat_ofNat] at hzero
      apply BitVec.eq_of_toNat_eq
      rw [BitVec.toNat_setWidth, extractLsb'_toNat_eq_div_mod]
      have := w.isLt
      omega
    rw [commandWord_of_opcodeMap h, hw]
  · cases h

/-- R22: a legal word written to CMD runs its command. -/
theorem exec_wr32_cmd_legal {i : Instr} {w : Word} (h : commandWord i = some w) (s : State) :
    exec (.wr32 0x00 w) s = exec i s := by
  cases i <;> cases h <;> rfl

/-- R62: any other word written to CMD goes through the command sequence and raises F_ILLEGAL there. -/
theorem exec_wr32_cmd_illegal {w : Word} (h : decodeCommand w = none) (s : State) :
    exec (.wr32 0x00 w) s = runCommand w (fun _ => .error .illegal) s := by
  show startCommand w s = _
  simp only [startCommand, h]
  rfl

/-- R22: a command leaves its own word in CMD. -/
theorem exec_command_cmd {i : Instr} {w : Word} (h : commandWord i = some w) {s t : State}
    (ht : exec i s = .next t) : t.cmd = w := by
  rw [exec_of_commandWord h, runCommand_eq] at ht
  cases ht
  exact commandSequence_cmd (fun _ _ hb => (commandBody_sameControl hb).cmd) w s.toNetblk

/-- R22: a write of CMD, of a legal word or not, ends with that word in CMD. -/
theorem exec_wr32_cmd_stores (w : Word) (s : State) : ∃ t, exec (.wr32 0x00 w) s = .next t ∧ t.cmd = w := by
  cases h : decodeCommand w with
  | none =>
    rw [exec_wr32_cmd_illegal h, runCommand_eq]
    exact ⟨_, rfl, commandSequence_cmd (fun _ _ hb => by cases hb) w s.toNetblk⟩
  | some i =>
    have hw := commandWord_of_decodeCommand h
    rw [exec_wr32_cmd_legal hw, exec_of_commandWord hw, runCommand_eq]
    exact ⟨_, rfl, commandSequence_cmd (fun _ _ hb => (commandBody_sameControl hb).cmd) w s.toNetblk⟩

theorem readByte_cmd (b : Netblk) (a : Nat) : (readByte b a).1.cmd = b.cmd := by
  unfold readByte
  repeat' split
  all_goals rfl

theorem writeByte_cmd (a : Nat) (v : Byte) (b : Netblk) : (writeByte a v b).cmd = b.cmd := by
  unfold writeByte
  split <;> rfl

theorem readWord_cmd (b : Netblk) (a : Addr) : (readWord b a).1.cmd = b.cmd := by
  unfold readWord
  split <;> rfl

theorem writeWord_cmd (r : Option Reg) (v : Word) (b : Netblk) : (writeWord r v b).cmd = b.cmd := by
  unfold writeWord
  split <;> rfl

/-- R37, R38: a WR32 elsewhere than CMD is a register write or a bus fault. -/
theorem exec_wr32_of_ne_cmd {a : Addr} (h : a ≠ 0) (v : Word) (s : State) :
    exec (.wr32 a v) s = finishWrite (writeWord (regAt a) v s.toNetblk) s :=
  if_neg (fun hr => h ((regAt_eq_cmd_iff a).mp hr))

/-- R22: only a command or a write of CMD changes CMD. -/
theorem exec_cmd_changed {i : Instr} {s t : State} (ht : exec i s = .next t) (hne : t.cmd ≠ s.cmd) :
    commandWord i = some t.cmd ∨ i = .wr32 0x00 t.cmd := by
  cases hw : commandWord i with
  | some w => exact .inl (by rw [exec_command_cmd hw ht])
  | none =>
    cases i with
    | rd8 a => cases ht; exact absurd (readByte_cmd s.toNetblk a.toNat) hne
    | wr8 a v => cases ht; exact absurd (writeByte_cmd a.toNat v s.toNetblk) hne
    | rd32 a => cases ht; exact absurd (readWord_cmd s.toNetblk a) hne
    | wr32 a v =>
      by_cases ha : a = 0
      · subst ha
        obtain ⟨t', ht', hcmd⟩ := exec_wr32_cmd_stores v s
        cases ht.symm.trans ht'
        exact .inr (by rw [hcmd])
      · rw [exec_wr32_of_ne_cmd ha] at ht
        cases ht
        exact absurd (writeWord_cmd (regAt a) v s.toNetblk) hne
    | _ => cases hw

/-- R22: a read of CMD returns CMD. -/
theorem exec_rd32_cmd (s : State) : exec (.rd32 0x00) s = .next (s.returned s.cmd) :=
  exec_rd32_of_regAt (r := .cmd) rfl s

/-- Settles O14: every end of the command sequence keeps the word R63 stored first, and nothing else writes CMD. -/
theorem commandWriteRunsCommand : Obligations.CommandWriteRunsCommand := by
  refine ⟨fun w s => ?_, fun i w s h => exec_wr32_cmd_legal h s, fun i s t => exec_cmd_changed,
    exec_rd32_cmd State.reset⟩
  obtain ⟨t, ht, rfl⟩ := exec_wr32_cmd_stores w s
  exact ⟨t, ht, rfl, exec_rd32_cmd t⟩

end Sys2Proof.Machine

/-! ## The host port, region by region (R36 to R41) -/

namespace Sys2Proof.Machine

open Sys2Proof

section Regions

variable {a : Nat}

theorem regionOf_eq_reg (h : a < 0x40) : regionOf a = .reg := by
  rcases regionOf_cases a with ⟨-, hr⟩ | ⟨hlo, -, -⟩ | ⟨hlo, -, -⟩ | ⟨hout, -⟩
  · exact hr
  all_goals omega

theorem regionOf_eq_buf (hlo : 0x1000 ≤ a) (hhi : a < 0x2000) : regionOf a = .buf := by
  rcases regionOf_cases a with ⟨hreg, -⟩ | ⟨-, -, hr⟩ | ⟨hwin, -, -⟩ | ⟨hout, -⟩
  · omega
  · exact hr
  all_goals omega

theorem regionOf_eq_rxwin (hlo : 0x2000 ≤ a) (hhi : a < 0x25EA) : regionOf a = .rxwin := by
  rcases regionOf_cases a with ⟨hreg, -⟩ | ⟨-, hbuf, -⟩ | ⟨-, -, hr⟩ | ⟨hout, -⟩
  · omega
  · omega
  · exact hr
  · omega

theorem regionOf_eq_unmapped (h : (0x40 ≤ a ∧ a < 0x1000) ∨ 0x25EA ≤ a) : regionOf a = .unmapped := by
  rcases regionOf_cases a with ⟨hreg, -⟩ | ⟨hlo, hhi, -⟩ | ⟨hlo, hhi, -⟩ | ⟨-, hr⟩
  · omega
  · omega
  · omega
  · exact hr

end Regions

/-- R21: the registers stand at the multiples of 4 below 0x38. -/
theorem regAt_some_bounds {a : Addr} {r : Reg} (h : regAt a = some r) : a.toNat < 0x38 ∧ a.toNat % 4 = 0 := by
  unfold regAt at h
  split at h <;> cases h
  all_goals omega

/-- R38, R41: the reserved offsets, a misaligned address and an address above the region name no register. -/
theorem regAt_eq_none {a : Addr} (h : 0x38 ≤ a.toNat ∨ a.toNat % 4 ≠ 0) : regAt a = none := by
  cases hr : regAt a with
  | none => rfl
  | some r =>
    obtain ⟨hlt, hmod⟩ := regAt_some_bounds hr
    omega

/-! ### How the port ends a transaction (R57, R116) -/

section Port

variable (s : State)

/-- A read without an effect on the block only returns its value. -/
theorem finishRead_unchanged (v : Word) : finishRead (s.toNetblk, v) s = .next (s.returned v) := rfl

theorem finishRead_busFaultRead : finishRead (busFaultRead s.toNetblk) s = .next (s.busFaulted.returned 0) := rfl

theorem finishRead_staleView : finishRead (takeHostFault .staleView s.toNetblk, 0) s =
    .next ({ s with fault := s.fault ||| 0x10 }.returned 0) := rfl

theorem finishWrite_busFault : finishWrite (takeHostFault .bus s.toNetblk) s = .next s.busFaulted := rfl

variable {s} {a : Addr}

/-- R38, R41: only BUF and RXWIN have bytes to read. -/
theorem exec_rd8_busFault (h : regionOf a.toNat = .reg ∨ regionOf a.toNat = .unmapped) :
    exec (.rd8 a) s = .next (s.busFaulted.returned 0) := by
  rw [← finishRead_busFaultRead]
  show finishRead (readByte s.toNetblk a.toNat) s = _
  rcases h with h | h <;> simp only [readByte, h]

/-- R38, R40, R41: only BUF has bytes to write. -/
theorem exec_wr8_busFault (h : regionOf a.toNat ≠ .buf) (v : Byte) : exec (.wr8 a v) s = .next s.busFaulted := by
  rw [← finishWrite_busFault]
  show finishWrite (writeByte a.toNat v s.toNetblk) s = _
  cases hr : regionOf a.toNat with
  | buf => exact absurd hr h
  | reg | rxwin | unmapped => simp only [writeByte, hr]

/-- R38 to R41: a word is read at a register only. -/
theorem exec_rd32_busFault (h : regAt a = none) : exec (.rd32 a) s = .next (s.busFaulted.returned 0) := by
  rw [← finishRead_busFaultRead]
  show finishRead (readWord s.toNetblk a) s = _
  simp only [readWord, h]

/-- R38 to R41: a word is written at a register only. -/
theorem exec_wr32_busFault (h : regAt a = none) (v : Word) : exec (.wr32 a v) s = .next s.busFaulted := by
  have hcmd : a ≠ 0 := by rintro rfl; cases h
  rw [exec_wr32_of_ne_cmd hcmd, h, ← finishWrite_busFault]
  rfl

/-- R38: the registers that the host reads and does not write. -/
def readOnlyRegs : List Reg :=
  [.status, .res0, .res1, .res2, .res3, .res4, .fault, .csumState, .fifoState]

theorem writeWord_readOnly {r : Reg} (h : r ∈ readOnlyRegs) (v : Word) (b : Netblk) :
    writeWord (some r) v b = takeHostFault .bus b := by
  cases r with
  | arg0 | arg1 | arg2 | arg3 => exact absurd h (by decide)
  | _ => rfl

theorem exec_wr32_readOnly {r : Reg} (h : regAt a = some r) (hr : r ∈ readOnlyRegs) (v : Word) :
    exec (.wr32 a v) s = .next s.busFaulted := by
  have hcmd : a ≠ 0 := by
    rintro rfl
    cases h
    exact absurd hr (by decide)
  rw [exec_wr32_of_ne_cmd hcmd, h, writeWord_readOnly hr, finishWrite_busFault]

/-- R39: a byte of BUF is read with no effect. -/
theorem exec_rd8_buf (h : regionOf a.toNat = .buf) :
    exec (.rd8 a) s = .next (s.returned ((s.buf.read a.toNat).setWidth 32)) := by
  rw [← finishRead_unchanged]
  show finishRead (readByte s.toNetblk a.toNat) s = _
  simp only [readByte, h]

/-- R39: a byte of BUF is written and nothing else. -/
theorem exec_wr8_buf (h : regionOf a.toNat = .buf) (v : Byte) :
    exec (.wr8 a v) s = .next { s with buf := s.buf.write a.toNat v } := by
  show finishWrite (writeByte a.toNat v s.toNetblk) s = _
  simp only [writeByte, h]
  rfl

/-- R40: in the window the view is tested first, then the offset against the head packet. -/
theorem readByte_rxwin (b : Netblk) {i : Nat} (hi : i < 1514) :
    readByte b (0x2000 + i) =
      if b.view = false then (takeHostFault .staleView b, 0)
      else if b.head.length ≤ i then busFaultRead b
      else (b, (byteAt b.head i).setWidth 32) := by
  have hwin : regionOf (0x2000 + i) = .rxwin := regionOf_eq_rxwin (by omega) (by omega)
  simp only [readByte, hwin, Config.rxwinBase, Nat.add_sub_cancel_left, ge_iff_le]

end Port

/-- R12: inside a sequence, `s[i]` is its byte. -/
theorem byteAt_of_lt {d : Bytes} {i : Nat} (h : i < d.length) : byteAt d i = d[i] :=
  List.getD_eq_getElem d 0 h

/-! ### The four regions -/

/-- Settles O15: each register's address decides its clause, and every other offset names no register. -/
theorem registerRegion : Obligations.RegisterRegion := by
  intro s
  have hread : ∀ {a : Addr} (r : Reg), regAt a = some r → exec (.rd32 a) s = .next (s.returned (readReg s.toNetblk r)) :=
    fun r h => exec_rd32_of_regAt h s
  refine ⟨⟨hread .cmd rfl, hread .status rfl, hread .arg0 rfl, hread .arg1 rfl, hread .arg2 rfl, hread .arg3 rfl,
      hread .res0 rfl, hread .res1 rfl, hread .res2 rfl, hread .res3 rfl, hread .res4 rfl, hread .fault rfl,
      hread .csumState rfl, hread .fifoState rfl⟩, ?args, ?command, ?readOnly, ?reserved, ?bytes, ?misaligned⟩
  case args =>
    exact fun v => ⟨exec_wr32_of_ne_cmd (by decide) v s, exec_wr32_of_ne_cmd (by decide) v s,
      exec_wr32_of_ne_cmd (by decide) v s, exec_wr32_of_ne_cmd (by decide) v s⟩
  case command =>
    exact fun w c h => exec_wr32_cmd_legal (commandWord_of_decodeCommand h) s
  case readOnly =>
    intro a v ha
    have hregs : [(0x04 : Addr), 0x18, 0x1C, 0x20, 0x24, 0x28, 0x2C, 0x30, 0x34].map regAt =
        readOnlyRegs.map some := rfl
    obtain ⟨r, hr, hra⟩ := List.mem_map.mp (hregs ▸ List.mem_map_of_mem ha)
    exact exec_wr32_readOnly hra.symm hr v
  case reserved =>
    intro a v ha
    have hnone : regAt a = none := by rcases ha with rfl | rfl <;> rfl
    exact ⟨exec_wr32_busFault hnone v, exec_rd32_busFault hnone⟩
  case bytes =>
    intro a v ha
    have hreg := regionOf_eq_reg ha
    exact ⟨exec_rd8_busFault (.inl hreg), exec_wr8_busFault (by rw [hreg]; decide) v⟩
  case misaligned =>
    intro a v _ hmod
    have hnone := regAt_eq_none (.inr hmod)
    exact ⟨exec_rd32_busFault hnone, exec_wr32_busFault hnone v⟩

/-- Settles O16: the address lies in BUF, so the byte transactions reach the memory and no register stands there. -/
theorem bufRegion : Obligations.BufRegion := by
  intro s a hlo hhi
  have hbuf : regionOf a.toNat = .buf := regionOf_eq_buf hlo (by omega)
  have hnone : regAt a = none := regAt_eq_none (.inl (by omega))
  refine ⟨exec_rd8_buf hbuf, fun v => ⟨s.buf.write a.toNat v, exec_wr8_buf hbuf v, ?_, ?_⟩,
    exec_rd32_busFault hnone, exec_wr32_busFault hnone⟩
  · exact Memory.read_write_same a.toNat v s.buf
  · exact fun x hx => Memory.read_write_other v s.buf hx

/-- Settles O17: RD8 takes the three cases of `readByte_rxwin`, and no other transaction is admitted in the window. -/
theorem rxwinRegion : Obligations.RxwinRegion := by
  intro s a i ha hi
  have hwin : regionOf a.toNat = .rxwin := regionOf_eq_rxwin (by omega) (by omega)
  have hnone : regAt a = none := regAt_eq_none (.inl (by omega))
  have hread : exec (.rd8 a) s = finishRead (readByte s.toNetblk (0x2000 + i)) s := by rw [← ha]; rfl
  rw [readByte_rxwin s.toNetblk hi] at hread
  refine ⟨?stale, ?past, ?byte, exec_wr8_busFault (by rw [hwin]; decide),
    exec_rd32_busFault hnone, exec_wr32_busFault hnone⟩
  case stale =>
    intro hview
    rw [hread, if_pos hview, finishRead_staleView]
  case past =>
    intro hview (hlen : s.head.length ≤ i)
    rw [hread, if_neg (ne_false_of_eq_true hview), if_pos hlen, finishRead_busFaultRead]
  case byte =>
    intro (hlt : i < s.head.length) hview
    rw [hread, if_neg (ne_false_of_eq_true hview), if_neg (Nat.not_le.mpr hlt), finishRead_unchanged, byteAt_of_lt hlt]
    rfl

/-- Settles O18: the address is in no region and names no register. -/
theorem unmappedRegion : Obligations.UnmappedRegion := by
  intro s a h
  have hout : regionOf a.toNat = .unmapped := regionOf_eq_unmapped (by omega)
  have hnone : regAt a = none := regAt_eq_none (.inl (by omega))
  exact ⟨exec_rd8_busFault (.inr hout), exec_rd32_busFault hnone, exec_wr8_busFault (by rw [hout]; decide),
    exec_wr32_busFault hnone⟩

/-! ## Spans (R47, R48) -/

section Spans

variable (b : Netblk) {a n : Nat}

theorem memRead_zero (a : Nat) : memRead b a 0 = .ok [] := rfl

theorem memRead_buf (hn : n ≠ 0) (hlo : 0x1000 ≤ a) (hhi : a + n ≤ 0x2000) :
    memRead b a n = .ok (b.buf.slice a n) :=
  (if_neg hn).trans (if_pos ⟨hlo, hhi⟩)

/-- R47: a span that starts in the window is decided by the view, then by the length of the head packet. -/
theorem memRead_rxwin (hn : n ≠ 0) (hlo : 0x2000 ≤ a) (hhi : a < 0x2000 + 1514) :
    memRead b a n =
      if b.view = false then .error .staleView
      else if a + n ≤ 0x2000 + b.head.length then .ok ((b.head.drop (a - 0x2000)).take n)
      else .error .badAddr := by
  have hbuf : ¬ (0x1000 ≤ a ∧ a + n ≤ 0x2000) := by omega
  exact (if_neg hn).trans ((if_neg hbuf).trans (if_pos ⟨hlo, hhi⟩))

/-- R47: a span that is not wholly in BUF and does not start in the window cannot be read. -/
theorem memRead_outside (hn : n ≠ 0) (hbuf : ¬ (0x1000 ≤ a ∧ a + n ≤ 0x2000))
    (hwin : ¬ (0x2000 ≤ a ∧ a < 0x2000 + 1514)) : memRead b a n = .error .badAddr :=
  (if_neg hn).trans ((if_neg hbuf).trans (if_neg hwin))

end Spans

/-- R48: a span that does not pass raises F_BAD_ADDR. -/
theorem checkDst_badAddr {a n : Nat} (hn : n ≠ 0) (hbuf : ¬ (0x1000 ≤ a ∧ a + n ≤ 0x2000)) :
    checkDst a n = .error .badAddr := by
  cases h : checkDst a n with
  | error f => rw [checkDst_error h]
  | ok => exact absurd ((checkDst_ok_iff a n).mp h) (not_or.mpr ⟨hn, hbuf⟩)

/-- Settles O21: the span's start and end choose one of the equations of `memRead`. -/
theorem sourceSpans : Obligations.SourceSpans := by
  intro b a n
  refine ⟨?empty, ?buf, ?stale, ?packet, ?past, ?outside⟩
  case empty =>
    rintro rfl
    exact memRead_zero b a
  case buf =>
    intro hn hlo hhi
    exact ⟨b.buf.slice a n, memRead_buf b hn hlo hhi, Memory.slice_length _ _ _, Memory.slice_getElem _ _ _⟩
  case stale =>
    intro hn hlo hhi hview
    rw [memRead_rxwin b hn hlo hhi, if_pos hview]
  case packet =>
    intro hn hlo hhi hview (hend : a + n ≤ 0x2000 + b.head.length)
    have hread : memRead b a n = .ok ((b.head.drop (a - 0x2000)).take n) := by
      rw [memRead_rxwin b hn hlo hhi, if_neg (ne_false_of_eq_true hview), if_pos hend]
    refine ⟨_, hread, memRead_length hread, fun i h => ?_⟩
    rw [← List.getElem?_eq_getElem h, List.getElem?_take_of_lt (memRead_length hread ▸ h), List.getElem?_drop]
    rfl
  case past =>
    intro hn hlo hhi hview (hend : 0x2000 + b.head.length < a + n)
    rw [memRead_rxwin b hn hlo hhi, if_neg (ne_false_of_eq_true hview), if_neg (Nat.not_le.mpr hend)]
  case outside =>
    intro hn hout
    exact memRead_outside b hn (by omega) (by omega)

/-- Settles O22: the check is `checkDst_ok_iff`, and the store is a run of byte writes at rising addresses. -/
theorem destinationSpans : Obligations.DestinationSpans := by
  refine ⟨fun a n => ⟨(checkDst_ok_iff a n).mpr, checkDst_badAddr⟩, fun b a d => ?_⟩
  exact ⟨b.buf.writeBytes a d, rfl, fun _ h => Memory.read_writeBytes_inside h,
    fun _ h => Memory.read_writeBytes_outside h⟩

end Sys2Proof.Machine

/-! ## Folded sums: ones' complement addition as a residue in 1 .. 0xFFFF (R14, R67) -/

namespace Sys2Proof.Machine

open Sys2Proof

/-- The one number in 1 .. 0xFFFF that a sum is congruent to modulo 0xFFFF, and 0 for the sum 0. -/
def onesResidue (n : Nat) : Nat := if n = 0 then 0 else (n - 1) % 0xFFFF + 1

theorem onesResidue_le (n : Nat) : onesResidue n ≤ 0xFFFF := by
  unfold onesResidue
  split <;> omega

theorem onesResidue_eq_self {n : Nat} (h : n ≤ 0xFFFF) : onesResidue n = n := by
  unfold onesResidue
  split <;> omega

/-- R14: adding the carries back in does not change the residue. -/
theorem onesResidue_carry (n : Nat) : onesResidue (n % 0x10000 + n / 0x10000) = onesResidue n := by
  unfold onesResidue
  split <;> split <;> omega

theorem onesResidue_add (m n : Nat) : onesResidue (onesResidue m + n) = onesResidue (m + n) := by
  by_cases hm : m = 0
  · simp [onesResidue, hm]
  · have hpos : onesResidue m = (m - 1) % 0xFFFF + 1 := if_neg hm
    rw [hpos, onesResidue, onesResidue]
    split <;> split <;> omega

/-- R76: a sum with the complement of its own residue added folds to all ones. -/
theorem onesResidue_add_complement (n : Nat) : onesResidue (n + (0xFFFF - onesResidue n)) = 0xFFFF := by
  rw [← onesResidue_add, Nat.add_sub_cancel' (onesResidue_le n)]
  rfl

/-- Each round lowers a sum above 0xFFFF, so `fuel` rounds finish every sum up to `fuel + 0xFFFF`. -/
theorem foldRounds_eq_onesResidue {fuel n : Nat} (h : n ≤ fuel + 0xFFFF) : foldRounds fuel n = onesResidue n := by
  induction fuel generalizing n with
  | zero => rw [foldRounds, onesResidue_eq_self (by omega)]
  | succ fuel ih =>
    unfold foldRounds
    split
    · rw [ih (by omega), onesResidue_carry]
    · exact (onesResidue_eq_self (by omega)).symm

/-- R14: what `fold` computes. -/
theorem fold_eq_onesResidue (n : Nat) : fold n = onesResidue n :=
  foldRounds_eq_onesResidue (Nat.le_add_right n 0xFFFF)

/-- R14: end-around carry is the residue of the sum. -/
theorem onesAdd_toNat (a w : Half) : (onesAdd a w).toNat = onesResidue (a.toNat + w.toNat) := by
  have ha := a.isLt
  have hw := w.isLt
  unfold onesAdd onesResidue
  split <;> rw [BitVec.toNat_ofNat] <;> split <;> omega

theorem word16_toNat (hi lo : Byte) : (word16 hi lo).toNat = hi.toNat * 256 + lo.toNat := by
  have hhi := hi.isLt
  have hlo := lo.isLt
  rw [word16, BitVec.toNat_ofNat]
  exact Nat.mod_eq_of_lt (by omega)

/-- R67: the checksum is the complement of the folded sum. -/
theorem checksum_toNat (s : Bytes) : (checksum s).toNat = 0xFFFF - onesResidue (wordSum s) := by
  have hle := onesResidue_le (wordSum s)
  rw [checksum, fold_eq_onesResidue, BitVec.toNat_not, BitVec.toNat_ofNat]
  omega

theorem checksum_eq_zero_iff (s : Bytes) : checksum s = 0 ↔ fold (wordSum s) = 0xFFFF := by
  have hle := onesResidue_le (wordSum s)
  have hzero : (0 : Half).toNat = 0 := rfl
  rw [← BitVec.toNat_inj, checksum_toNat, fold_eq_onesResidue, hzero]
  omega

/-! ## The accumulator against the function (R68 to R70) -/

theorem csumFinal_toNat_of_even {a : Accum} (h : a.odd = false) : (csumFinal a).toNat = 0xFFFF - a.acc.toNat := by
  simp [csumFinal, h, BitVec.toNat_not]

/-- R70: a pending byte is finalized as the high byte of a word. -/
theorem csumFinal_toNat_of_odd {a : Accum} (h : a.odd = true) :
    (csumFinal a).toNat = 0xFFFF - onesResidue (a.acc.toNat + a.hold.toNat * 256) := by
  simp [csumFinal, h, BitVec.toNat_not, onesAdd_toNat, word16_toNat]

/-- R69: two bytes fed on an even boundary add one word. -/
theorem csumFeed_pair {a : Accum} (h : a.odd = false) (x y : Byte) (s : Bytes) :
    csumFeed a (x :: y :: s) = csumFeed { acc := onesAdd a.acc (word16 x y), odd := false, hold := 0 } s := by
  simp [csumFeed, csumByte, h]

/-- R68, from any accumulator with no byte pending: what is finalized is the complement of the folded sum of `acc` and
the words fed. -/
theorem csumFinal_csumFeed_toNat (s : Bytes) {a : Accum} (h : a.odd = false) :
    (csumFinal (csumFeed a s)).toNat = 0xFFFF - onesResidue (a.acc.toNat + wordSum s) := by
  induction s using wordSum.induct generalizing a with
  | case1 =>
    have hacc : onesResidue a.acc.toNat = a.acc.toNat := onesResidue_eq_self (Nat.le_of_lt_succ a.acc.isLt)
    rw [wordSum, Nat.add_zero, hacc]
    exact csumFinal_toNat_of_even h
  | case2 x =>
    have hfeed : csumFeed a [x] = { a with hold := x, odd := true } := by simp [csumFeed, csumByte, h]
    rw [hfeed, csumFinal_toNat_of_odd rfl, wordSum]
  | case3 x y s ih =>
    rw [csumFeed_pair h, ih rfl, onesAdd_toNat, onesResidue_add, word16_toNat, wordSum, Nat.add_assoc]

/-- Settles O24: a clear accumulator contributes 0 to the sum. -/
theorem accumulatorRealisesChecksum : Obligations.AccumulatorRealisesChecksum := by
  intro s
  apply BitVec.eq_of_toNat_eq
  have hclear : Accum.clear.acc.toNat + wordSum s = wordSum s := Nat.zero_add _
  rw [csumFinal_csumFeed_toNat s rfl, hclear, checksum_toNat]

/-! ## Self-verification (R76) -/

/-- R67: a sequence of even length is whole words, so what follows it is summed on its own. -/
theorem wordSum_append {p : Bytes} (h : p.length % 2 = 0) (q : Bytes) : wordSum (p ++ q) = wordSum p + wordSum q := by
  induction p using wordSum.induct with
  | case1 => rw [List.nil_append, wordSum, Nat.zero_add]
  | case2 x => simp at h
  | case3 x y p ih =>
    have hp : p.length % 2 = 0 := by simp only [List.length_cons] at h; omega
    simp only [List.cons_append, wordSum, ih hp, Nat.add_assoc]

/-- R12: the two bytes of a field sum to its value. -/
theorem wordSum_bytes16_append (v : Half) (q : Bytes) : wordSum (bytes16 v ++ q) = v.toNat + wordSum q := by
  have hv := v.isLt
  simp only [bytes16, List.cons_append, List.nil_append, wordSum, extractLsb'_toNat_eq_div_mod]
  omega

/-- Zeros put into a field of zeros change nothing. -/
theorem patch16_zero {s : Bytes} {k : Nat} (hk : k + 1 < s.length) (h0 : byteAt s k = 0) (h1 : byteAt s (k + 1) = 0) :
    patch16 s k 0 = s := by
  rw [byteAt_of_lt (by omega)] at h0 h1
  have hdrop : s.drop k = bytes16 0 ++ s.drop (k + 2) := by
    rw [List.drop_eq_getElem_cons (by omega), List.drop_eq_getElem_cons hk, h0, h1]
    rfl
  rw [patch16, List.append_assoc, ← hdrop, List.take_append_drop]

/-- R76: a field at an even index is one whole word of the sum. -/
theorem wordSum_patch16 {s : Bytes} {k : Nat} (heven : k % 2 = 0) (hk : k ≤ s.length) (v : Half) :
    wordSum (patch16 s k v) = v.toNat + wordSum (patch16 s k 0) := by
  have hpre : (s.take k).length % 2 = 0 := by rw [List.length_take_of_le hk, heven]
  have hzero : (0 : Half).toNat = 0 := rfl
  simp only [patch16, List.append_assoc, wordSum_append hpre, wordSum_bytes16_append, hzero]
  omega

/-- R76: the folded sum of a sequence with its checksum put into an even zero field. -/
theorem fold_wordSum_patch16_checksum {s : Bytes} {k : Nat} (heven : k % 2 = 0) (hk : k + 1 < s.length)
    (h0 : byteAt s k = 0) (h1 : byteAt s (k + 1) = 0) : fold (wordSum (patch16 s k (checksum s))) = 0xFFFF := by
  rw [wordSum_patch16 heven (by omega), patch16_zero hk h0 h1, checksum_toNat, fold_eq_onesResidue, Nat.add_comm]
  exact onesResidue_add_complement (wordSum s)

/-- Settles O26: the law is `fold_wordSum_patch16_checksum`. At index 1 of 01 00 00 the checksum FEFF gives 01 FE FF,
whose words 01FE and FF00 fold to 00FF. -/
theorem checksumVerifiesItself : Obligations.ChecksumVerifiesItself := by
  refine ⟨fun s k heven hk h0 h1 => ?_, [0x01, 0x00, 0x00], 1, by decide, by decide, rfl, rfl, ?_⟩
  · have hfold := fold_wordSum_patch16_checksum heven hk h0 h1
    exact ⟨hfold, (checksum_eq_zero_iff _).mpr hfold⟩
  · decide

end Sys2Proof.Machine

/-! ## A command on a block that is not halted (R63) -/

namespace Sys2Proof.Machine

open Sys2Proof

section NotHalted

variable {b c : Netblk} {w : Word} {body : Netblk → Except FaultCode Netblk} {f : FaultCode}

theorem commandSequence_of_ok (hb : b.fault = 0) (h : body { b with cmd := w } = .ok c) :
    commandSequence w body b = c := by
  rcases commandSequence_cases w body b with ⟨hne, -⟩ | ⟨-, g, hg, -⟩ | ⟨-, d, hd, heq⟩
  · exact absurd hb hne
  · cases h.symm.trans hg
  · cases h.symm.trans hd
    exact heq

theorem commandSequence_of_error (hb : b.fault = 0) (h : body { b with cmd := w } = .error f) :
    commandSequence w body b = { b with cmd := w, fault := b.fault ||| f.mask, status := 0x80 } := by
  rcases commandSequence_cases w body b with ⟨hne, -⟩ | ⟨-, g, hg, heq⟩ | ⟨-, d, hd, -⟩
  · exact absurd hb hne
  · cases h.symm.trans hg
    exact heq
  · cases h.symm.trans hd

variable {i : Instr} {s : State}

/-- R63 step 4: a command whose body ends leaves the block its body answers. -/
theorem exec_of_body_ok (hw : commandWord i = some w) (hs : s.fault = 0)
    (h : commandBody i { s.toNetblk with cmd := w } = .ok c) : exec i s = .next { s with toNetblk := c } := by
  rw [exec_of_commandWord hw, runCommand_eq, commandSequence_of_ok hs h]

/-- R63 step 3, R115: a command whose body faults leaves its word, STATUS and the fault's bit. -/
theorem exec_of_body_error (hw : commandWord i = some w) (hs : s.fault = 0)
    (h : commandBody i { s.toNetblk with cmd := w } = .error f) : exec i s = .next (s.faulted w f) := by
  rw [exec_of_commandWord hw, runCommand_eq, commandSequence_of_error hs h]
  rfl

end NotHalted

/-! ## The four checksum commands (R72 to R75) -/

/-- `MemRead` does not look at CMD. -/
theorem memRead_cmd (b : Netblk) (w : Word) (a n : Nat) : memRead { b with cmd := w } a n = memRead b a n :=
  memRead_congr rfl rfl rfl a n

section Bodies

variable {b : Netblk} {d : Bytes} {f : FaultCode}

theorem csumFeedBody_ok (h : memRead b b.arg0.toNat b.arg1.toNat = .ok d) :
    csumFeedBody b = .ok ({ b with csum := csumFeed b.csum d }.setStatus .ok) := by
  rw [csumFeedBody, h]
  rfl

theorem csumFeedBody_error (h : memRead b b.arg0.toNat b.arg1.toNat = .error f) : csumFeedBody b = .error f := by
  rw [csumFeedBody, h]
  rfl

/-- R75: what CSUM_CALC reports is the pure checksum of its span (R68). -/
theorem csumCalcBody_ok (h : memRead b b.arg0.toNat b.arg1.toNat = .ok d) :
    csumCalcBody b =
      .ok ({ b with csum := csumFeed Accum.clear d, res0 := zext32 (checksum d) }.setStatus .ok) := by
  rw [csumCalcBody, h, ← accumulatorRealisesChecksum d]
  rfl

theorem csumCalcBody_error (h : memRead b b.arg0.toNat b.arg1.toNat = .error f) : csumCalcBody b = .error f := by
  rw [csumCalcBody, h]
  rfl

end Bodies

/-- R11: the halves of a zero-extended 16-bit value. -/
theorem zext32_halves (v : Half) : (zext32 v).extractLsb' 16 16 = 0 ∧ (zext32 v).extractLsb' 0 16 = v := by
  have hv := v.isLt
  simp only [zext32, extractLsb'_eq_iff, BitVec.toNat_setWidth, BitVec.ofNat_eq_ofNat, BitVec.toNat_ofNat]
  omega

/-- Settles O30: the span is read from the block with CMD already written, and `csumCalcBody_ok` turns what the
accumulator finalizes to into the checksum. -/
theorem csumCalcReports : Obligations.CsumCalcReports := fun s hs =>
  ⟨fun _ hd => exec_of_body_ok rfl hs (csumCalcBody_ok ((memRead_cmd s.toNetblk 0x13 _ _).trans hd)),
   fun _ hf => exec_of_body_error rfl hs (csumCalcBody_error ((memRead_cmd s.toNetblk 0x13 _ _).trans hf))⟩

/-- Settles O27: the body has no operand and cannot fault. -/
theorem csumClearClears : Obligations.CsumClearClears := fun _ hs => exec_of_body_ok rfl hs rfl

/-- Settles O28: the span is read from the block with CMD already written, which `MemRead` does not see. -/
theorem csumFeedFeedsSpan : Obligations.CsumFeedFeedsSpan := fun s hs =>
  ⟨fun _ hd => exec_of_body_ok rfl hs (csumFeedBody_ok ((memRead_cmd s.toNetblk 0x11 _ _).trans hd)),
   fun _ hf => exec_of_body_error rfl hs (csumFeedBody_error ((memRead_cmd s.toNetblk 0x11 _ _).trans hf))⟩

/-- Settles O29: RES0 is the zero-extended value that finalizing the accumulator gives. -/
theorem csumFinalReports : Obligations.CsumFinalReports := fun s hs =>
  ⟨zext32 (csumFinal s.csum), exec_of_body_ok rfl hs rfl, zext32_halves (csumFinal s.csum)⟩

end Sys2Proof.Machine

/-! ## The accumulator beside the IP and ICMP layers (R77) -/

namespace Sys2Proof.Machine

open Sys2Proof

/-- The block with another accumulator. -/
def Netblk.withCsum (b : Netblk) (a : Accum) : Netblk := { b with csum := a }

theorem withCsum_self (b : Netblk) : b.withCsum b.csum = b := rfl

/-- A command body that acts alike on every accumulator and hands it on: what it answers with `a` in the block is what it
answers otherwise, with `a` in it. -/
def IgnoresCsum (body : Netblk → Except FaultCode Netblk) : Prop :=
  ∀ (b : Netblk) (a : Accum), body (b.withCsum a) = (body b).map (·.withCsum a)

namespace IgnoresCsum

theorem ok {g : Netblk → Netblk} (hg : ∀ b a, g (b.withCsum a) = (g b).withCsum a) :
    IgnoresCsum fun b => .ok (g b) :=
  fun b a => congrArg Except.ok (hg b a)

theorem error (f : FaultCode) : IgnoresCsum fun _ => .error f := fun _ _ => rfl

/-- A check or a read that does not see the accumulator, and then a body that ignores it. -/
theorem bind {α : Type} {x : Netblk → Except FaultCode α} {f : α → Netblk → Except FaultCode Netblk}
    (hx : ∀ b a, x (b.withCsum a) = x b) (hf : ∀ v, IgnoresCsum (f v)) : IgnoresCsum fun b => x b >>= (f · b) := by
  intro b a
  simp only [hx]
  cases x b with
  | error e => rfl
  | ok v => exact hf v b a

theorem ite {p : Netblk → Prop} [DecidablePred p] {f g : Netblk → Except FaultCode Netblk}
    (hp : ∀ b a, p (b.withCsum a) ↔ p b) (hf : IgnoresCsum f) (hg : IgnoresCsum g) :
    IgnoresCsum fun b => if p b then f b else g b := by
  intro b a
  simp only [hp]
  split
  · exact hf b a
  · exact hg b a

end IgnoresCsum

/-! ### The shared operations -/

section Operations

variable (b : Netblk) (a : Accum)

theorem lbEnqueue_withCsum (p : Bytes) :
    lbEnqueue p (b.withCsum a) = ((lbEnqueue p b).1.withCsum a, (lbEnqueue p b).2) := by
  rcases lbEnqueue_cases p b with ⟨hc, h⟩ | ⟨hc, hl, h⟩ | ⟨hc, hl, h⟩ <;> rw [h]
  · exact if_pos hc
  · exact (if_neg hc).trans (if_pos hl)
  · exact (if_neg hc).trans (if_neg (Nat.not_lt.mpr hl))

theorem lbConsume_withCsum :
    lbConsume (b.withCsum a) = ((lbConsume b).1.withCsum a, (lbConsume b).2) := by
  rcases lbConsume_cases b with ⟨hc, h⟩ | ⟨hc, h⟩ <;> rw [h]
  · exact if_pos hc
  · exact if_neg hc

theorem ipSend_withCsum (dst : Word) (proto : Byte) (payload : Bytes) :
    ipSend dst proto payload (b.withCsum a) =
      ((ipSend dst proto payload b).1.withCsum a, (ipSend dst proto payload b).2) := by
  unfold ipSend
  split
  · rfl
  · split
    · rfl
    · exact lbEnqueue_withCsum b a _

theorem icmpSend_withCsum (type : Byte) (dst idseq : Word) (data : Bytes) :
    icmpSend type dst idseq data (b.withCsum a) =
      ((icmpSend type dst idseq data b).1.withCsum a, (icmpSend type dst idseq data b).2) := by
  unfold icmpSend
  split
  · rfl
  · exact ipSend_withCsum b a _ _ _

theorem emit_withCsum (e : Event) : emit e (b.withCsum a) = (emit e b).withCsum a := rfl

theorem icmpHandle_withCsum (src : Word) (d : Bytes) :
    icmpHandle src d (b.withCsum a) = ((icmpHandle src d b).1.withCsum a, (icmpHandle src d b).2) := by
  unfold icmpHandle
  split
  · rfl
  · simp only [emit_withCsum, icmpSend_withCsum]
    split
    · rfl
    · split <;> rfl

theorem drainOne_withCsum : drainOne (b.withCsum a) = (drainOne b).withCsum a := by
  have hhead : (b.withCsum a).head = b.head := rfl
  simp only [drainOne, hhead, icmpHandle_withCsum]
  split <;> rw [lbConsume_withCsum]

theorem drainLoop_withCsum (fuel k : Nat) :
    drainLoop fuel k (b.withCsum a) = ((drainLoop fuel k b).1.withCsum a, (drainLoop fuel k b).2) := by
  have hqueue : ∀ c : Netblk, (c.withCsum a).queue = c.queue := fun _ => rfl
  induction fuel generalizing k b with
  | zero => rfl
  | succ fuel ih =>
    rw [drainLoop_succ, drainLoop_succ, hqueue, drainOne_withCsum]
    split
    · rfl
    · exact ih (drainOne b) (k + 1)

theorem ipProcess_withCsum : ipProcess (b.withCsum a) = ((ipProcess b).1.withCsum a, (ipProcess b).2) := by
  have hfuel : drainFuel (b.withCsum a) = drainFuel b := rfl
  simp only [ipProcess, hfuel, drainLoop_withCsum]
  rfl

end Operations

/-! ### The twelve commands -/

theorem netInitBody_ignoresCsum : IgnoresCsum netInitBody :=
  .ite (fun _ _ => Iff.rfl) (.error .reinit) (.ok fun _ _ => rfl)

theorem ipIsLoopbackBody_ignoresCsum : IgnoresCsum ipIsLoopbackBody := .ok fun _ _ => rfl

/-- The header depends on ARG0, ARG1 and ARG2 only; its bytes are not looked at here. -/
theorem ipBuildHdrBody_ignoresCsum : IgnoresCsum ipBuildHdrBody :=
  .bind (fun _ _ => rfl) fun proto => .bind (fun _ _ => rfl) fun _ =>
    .ite (fun _ _ => Iff.rfl) (.ok fun _ _ => rfl) <| .ok fun b a => by
      have hheader : buildHeader (b.withCsum a).arg0 proto (b.withCsum a).arg2.toNat =
        buildHeader b.arg0 proto b.arg2.toNat := rfl
      rw [hheader]
      generalize buildHeader b.arg0 proto b.arg2.toNat = header
      rfl

theorem ipParseHdrBody_ignoresCsum : IgnoresCsum ipParseHdrBody :=
  .bind (fun _ _ => rfl) fun _ => .ite (fun _ _ => Iff.rfl) (.ok fun _ _ => rfl) (.ok fun _ _ => rfl)

theorem ipSendBody_ignoresCsum : IgnoresCsum ipSendBody :=
  .bind (fun _ _ => rfl) fun proto => .bind (fun _ _ => rfl) fun _ => .bind (fun _ _ => rfl) fun d =>
    .ok fun b a => congrArg (fun r => r.1.setStatus r.2) (ipSend_withCsum b a b.arg0 proto d)

theorem ipProcessBody_ignoresCsum : IgnoresCsum ipProcessBody :=
  .bind (fun _ _ => rfl) fun _ => .ok fun b a =>
    congrArg (fun r => { r.1 with res0 := BitVec.ofNat 32 r.2 }.setStatus .ok) (ipProcess_withCsum b a)

theorem icmpInitBody_ignoresCsum : IgnoresCsum icmpInitBody := .ok fun _ _ => rfl

theorem icmpBuildBody_ignoresCsum (type : Byte) : IgnoresCsum (icmpBuildBody type) :=
  .bind (fun _ _ => rfl) fun _ => .bind (fun _ _ => rfl) fun _ =>
    .ite (fun _ _ => Iff.rfl) (.ok fun _ _ => rfl) (.ok fun _ _ => rfl)

theorem icmpSendBody_ignoresCsum (type : Byte) : IgnoresCsum (icmpSendBody type) :=
  .bind (fun _ _ => rfl) fun _ => .bind (fun _ _ => rfl) fun d => .ok fun b a =>
    congrArg (fun r => r.1.setStatus r.2) (icmpSend_withCsum b a type b.arg0 b.arg1 d)

theorem icmpHandleBody_ignoresCsum : IgnoresCsum icmpHandleBody :=
  .bind (fun _ _ => rfl) fun _ => .bind (fun _ _ => rfl) fun d => .ok fun b a =>
    congrArg (fun r => { r.1 with res0 := actionCode r.2.1, res1 := r.2.2.code }.setStatus .ok)
      (icmpHandle_withCsum b a b.arg0 d)

/-- R63: the command sequence keeps out of the accumulator what its body keeps out. -/
theorem commandSequence_withCsum {body : Netblk → Except FaultCode Netblk} (h : IgnoresCsum body) (w : Word)
    (b : Netblk) (a : Accum) : commandSequence w body (b.withCsum a) = (commandSequence w body b).withCsum a := by
  have hbody : body { b.withCsum a with cmd := w } = (body { b with cmd := w }).map (·.withCsum a) :=
    h { b with cmd := w } a
  have hhalted : (b.withCsum a).halted = b.halted := rfl
  simp only [commandSequence, hhalted, hbody]
  split
  · rfl
  · cases body { b with cmd := w } <;> rfl

/-- What hands every accumulator on hands its own on. -/
theorem commandSequence_csum {body : Netblk → Except FaultCode Netblk} (h : IgnoresCsum body) (w : Word)
    (b : Netblk) : (commandSequence w body b).csum = b.csum := by
  have hown := commandSequence_withCsum h w b b.csum
  rw [withCsum_self] at hown
  rw [hown]
  rfl

/-- R77: a command whose body ignores the accumulator leaves it, and ends alike with any other in its place. -/
theorem exec_leaves_csum {i : Instr} {w : Word} (hw : commandWord i = some w) (h : IgnoresCsum (commandBody i))
    (s : State) (a : Accum) :
    ∃ t, exec i s = .next t ∧ t.csum = s.csum ∧ exec i { s with csum := a } = .next { t with csum := a } := by
  refine ⟨{ s with toNetblk := commandSequence w (commandBody i) s.toNetblk }, ?_, ?_, ?_⟩
  · rw [exec_of_commandWord hw, runCommand_eq]
  · exact commandSequence_csum h w s.toNetblk
  · rw [exec_of_commandWord hw, runCommand_eq]
    exact congrArg (fun b => Host.Outcome.next { s with toNetblk := b }) (commandSequence_withCsum h w s.toNetblk a)

/-- Settles O31: each of the twelve bodies ignores the accumulator. -/
theorem networkLeavesAccumulator : Obligations.NetworkLeavesAccumulator := by
  intro i s a hi
  have hnet : ∃ w, commandWord i = some w ∧ IgnoresCsum (commandBody i) := by
    cases i with
    | netInit => exact ⟨_, rfl, netInitBody_ignoresCsum⟩
    | ipIsLoopback => exact ⟨_, rfl, ipIsLoopbackBody_ignoresCsum⟩
    | ipBuildHdr => exact ⟨_, rfl, ipBuildHdrBody_ignoresCsum⟩
    | ipParseHdr => exact ⟨_, rfl, ipParseHdrBody_ignoresCsum⟩
    | ipSend => exact ⟨_, rfl, ipSendBody_ignoresCsum⟩
    | ipProcess => exact ⟨_, rfl, ipProcessBody_ignoresCsum⟩
    | icmpInit => exact ⟨_, rfl, icmpInitBody_ignoresCsum⟩
    | icmpBuildReq | icmpBuildRep => exact ⟨_, rfl, icmpBuildBody_ignoresCsum _⟩
    | icmpSendReq | icmpSendRep => exact ⟨_, rfl, icmpSendBody_ignoresCsum _⟩
    | icmpHandle => exact ⟨_, rfl, icmpHandleBody_ignoresCsum⟩
    | _ => simp at hi
  obtain ⟨w, hw, h⟩ := hnet
  exact exec_leaves_csum hw h s a

end Sys2Proof.Machine

/-! ## The queue primitives as equations (R79, R80) -/

namespace Sys2Proof.Machine

open Sys2Proof

section QueuePrimitives

variable {b : Netblk} {p : Bytes}

theorem lbEnqueue_of_full (h : b.queue.count.val = 16) (p : Bytes) : lbEnqueue p b = (b, .timeout) := if_pos h

theorem lbEnqueue_of_room (h : b.queue.count.val ≠ 16) (hp : p.length ≤ 1514) :
    lbEnqueue p b = (pushPacket p b, .ok) :=
  (if_neg h).trans (if_neg (Nat.not_lt.mpr hp))

theorem lbConsume_of_empty (h : b.queue.count = 0) : lbConsume b = ({ b with view := false }, .empty) := if_pos h

theorem lbConsume_of_packet (h : b.queue.count ≠ 0) :
    lbConsume b = (popPacket { b with view := false }, .ok) := if_neg h

theorem pushPacket_count_val (h : b.queue.count.val < 16) (p : Bytes) :
    (pushPacket p b).queue.count.val = b.queue.count.val + 1 := by
  rw [pushPacket_queue]
  exact Fin.val_add_one_of_lt' (by omega)

theorem popPacket_count_val (h : b.queue.count ≠ 0) :
    (popPacket b).queue.count.val = b.queue.count.val - 1 := by
  rw [popPacket_queue]
  exact Fin.val_sub_one_of_ne_zero h

end QueuePrimitives

/-! ## Capacity (R86) -/

/-- The block after each packet of a list has been offered to the queue, in order. -/
def enqueueAll (ps : List Bytes) (b : Netblk) : Netblk := ps.foldl (fun c p => (lbEnqueue p c).1) b

/-- R86: packets that fit are all counted. -/
theorem enqueueAll_count_val {ps : List Bytes} {b : Netblk} (hps : ∀ p ∈ ps, p.length ≤ 1514)
    (hroom : b.queue.count.val + ps.length ≤ 16) :
    (enqueueAll ps b).queue.count.val = b.queue.count.val + ps.length := by
  induction ps generalizing b with
  | nil => rfl
  | cons p ps ih =>
    obtain ⟨hp, hps⟩ := List.forall_mem_cons.mp hps
    rw [List.length_cons] at hroom ⊢
    have hlt : b.queue.count.val < 16 := by omega
    have hpush := pushPacket_count_val hlt p
    have hstep : enqueueAll (p :: ps) b = enqueueAll ps (pushPacket p b) := by
      rw [enqueueAll, List.foldl_cons, lbEnqueue_of_room hlt.ne hp, enqueueAll]
    rw [hstep, ih hps (by omega)]
    omega

/-- R86: a removal from a full queue makes room for one packet, and for no second one. -/
theorem lbEnqueue_after_consume_of_full {b : Netblk} (hfull : b.queue.count.val = 16) {p : Bytes}
    (hp : p.length ≤ 1514) (q : Bytes) :
    ∃ c, lbEnqueue p (lbConsume b).1 = (c, .ok) ∧ lbEnqueue q c = (c, .timeout) := by
  have hne : b.queue.count ≠ 0 := fun h => by simp [h] at hfull
  have hpop : (lbConsume b).1.queue.count.val = 15 := by
    rw [lbConsume_of_packet hne, popPacket_count_val (b := { b with view := false }) hne, hfull]
  have hpush : (pushPacket p (lbConsume b).1).queue.count.val = 16 := by
    rw [pushPacket_count_val (by omega), hpop]
  exact ⟨_, lbEnqueue_of_room (by omega) hp, lbEnqueue_of_full hpush q⟩

/-- Settles O36: the first `k` packets leave the count at `k`, so there is room for each of sixteen and for no more. -/
theorem queueCapacity : Obligations.QueueCapacity := by
  intro b ps hempty hlen hps
  have hcount : ∀ k ≤ 16, (enqueueAll (ps.take k) b).queue.count.val = k := fun k hk => by
    rw [enqueueAll_count_val (fun p hp => hps p (List.mem_of_mem_take hp)) (by simp [hempty, hlen, hk])]
    simp [hempty, hlen, hk]
  have hfull : (enqueueAll ps b).queue.count.val = 16 := by
    have h := hcount 16 le_rfl
    rwa [← hlen, List.take_length, hlen] at h
  refine ⟨fun k hk => ?_, hfull, lbEnqueue_of_full hfull, fun p q hp => lbEnqueue_after_consume_of_full hfull hp q⟩
  have hroom : (enqueueAll (ps.take k) b).queue.count.val ≠ 16 := by
    rw [hcount k (by omega)]
    omega
  exact congrArg Prod.snd (lbEnqueue_of_room hroom (hps _ (List.getElem_mem hk)))

end Sys2Proof.Machine

/-! ## The loopback commands on a block that is not halted (R82 to R84) -/

namespace Sys2Proof.Machine

open Sys2Proof

section Bodies

variable {b : Netblk}

/-- R63 step 3: a command that needs the device goes on after NET_INIT. -/
theorem requireInit_bind_of_ready (h : b.netReady = true) (f : Unit → Except FaultCode Netblk) :
    (requireInit b >>= f) = f () := by
  rcases requireInit_cases b with ⟨-, hr⟩ | ⟨hn, -⟩
  · rw [hr]
    rfl
  · exact absurd (h.symm.trans hn) Bool.noConfusion

/-- R63 step 3: a command that needs the device faults before NET_INIT, whatever follows the check. -/
theorem requireInit_bind_of_notReady (h : b.netReady = false) (f : Unit → Except FaultCode Netblk) :
    (requireInit b >>= f) = .error .notInit := by
  rcases requireInit_cases b with ⟨hr, -⟩ | ⟨-, hn⟩
  · exact absurd (h.symm.trans hr) Bool.noConfusion
  · rw [hn]
    rfl

theorem lbSendBody_ok (h : b.netReady = true) {p : Bytes} (hp : memRead b b.arg0.toNat b.arg1.toNat = .ok p) :
    lbSendBody b = .ok ((lbEnqueue p b).1.setStatus (lbEnqueue p b).2) := by
  rw [lbSendBody, requireInit_bind_of_ready h, hp]
  rfl

theorem lbSendBody_error (h : b.netReady = true) {f : FaultCode}
    (hf : memRead b b.arg0.toNat b.arg1.toNat = .error f) : lbSendBody b = .error f := by
  rw [lbSendBody, requireInit_bind_of_ready h, hf]
  rfl

theorem lbRecvBody_of_empty (h : b.netReady = true) (hc : b.queue.count = 0) :
    lbRecvBody b = .ok ({ b with view := false, res0 := 0 }.setStatus .empty) :=
  (requireInit_bind_of_ready h _).trans (if_pos hc)

theorem lbRecvBody_of_packet (h : b.netReady = true) (hc : b.queue.count ≠ 0) :
    lbRecvBody b = .ok ({ b with view := true, res0 := BitVec.ofNat 32 b.head.length }.setStatus .ok) :=
  (requireInit_bind_of_ready h _).trans (if_neg hc)

theorem lbConsumeBody_ok (h : b.netReady = true) :
    lbConsumeBody b = .ok ((lbConsume b).1.setStatus (lbConsume b).2) :=
  requireInit_bind_of_ready h _

theorem lbConsumeBody_of_empty (h : b.netReady = true) (hc : b.queue.count = 0) :
    lbConsumeBody b = .ok ({ b with view := false }.setStatus .empty) := by
  rw [lbConsumeBody_ok h, lbConsume_of_empty hc]

theorem lbConsumeBody_of_packet (h : b.netReady = true) (hc : b.queue.count ≠ 0) :
    lbConsumeBody b = .ok ((popPacket { b with view := false }).setStatus .ok) := by
  rw [lbConsumeBody_ok h, lbConsume_of_packet hc]

end Bodies

/-- R79: a command that offers a packet to the queue and reports the outcome ends as `State.sends` says. -/
theorem sends_eq (s : State) (w : Word) (p : Bytes) :
    { s with
      toNetblk := (lbEnqueue p { s.toNetblk with cmd := w }).1.setStatus
        (lbEnqueue p { s.toNetblk with cmd := w }).2 } = s.sends w p := by
  unfold State.sends
  rcases lbEnqueue_cases p { s.toNetblk with cmd := w } with
    ⟨hfull, h⟩ | ⟨hroom, hlong, h⟩ | ⟨hroom, hfits, h⟩ <;> rw [h]
  · exact (if_pos hfull).symm
  · exact ((if_neg hroom).trans (if_pos hlong)).symm
  · exact ((if_neg hroom).trans (if_neg (Nat.not_lt.mpr hfits))).symm

/-- Settles O32: the span is read from the block with CMD already written, and `sends_eq` gives what the enqueue does. -/
theorem lbSendEnqueues : Obligations.LbSendEnqueues := by
  intro s hs
  have hspan := memRead_cmd s.toNetblk 0x20 s.arg0.toNat s.arg1.toNat
  refine ⟨fun hready => ?notInit, fun hready => ⟨fun p hp => ?packet, fun f hf => ?fault⟩⟩
  case notInit => exact exec_of_body_error rfl hs (requireInit_bind_of_notReady hready _)
  case packet =>
    rw [← sends_eq s 0x20 p]
    exact exec_of_body_ok rfl hs (lbSendBody_ok (b := { s.toNetblk with cmd := 0x20 }) hready (hspan.trans hp))
  case fault =>
    exact exec_of_body_error rfl hs (lbSendBody_error (b := { s.toNetblk with cmd := 0x20 }) hready (hspan.trans hf))

/-- Settles O33: the two ends of the body; a length of at most 1514 is not cut by RES0's 32 bits. -/
theorem lbRecvPeeks : Obligations.LbRecvPeeks := by
  refine fun s hs => ⟨fun hready => ?notInit, fun hready hc => ?empty, fun hready hc hlen => ?packet⟩
  case notInit => exact exec_of_body_error rfl hs (requireInit_bind_of_notReady hready _)
  case empty => exact exec_of_body_ok rfl hs (lbRecvBody_of_empty hready hc)
  case packet =>
    refine ⟨_, exec_of_body_ok rfl hs (lbRecvBody_of_packet hready hc), ?_⟩
    rw [BitVec.toNat_ofNat]
    exact Nat.mod_eq_of_lt (Nat.lt_of_le_of_lt hlen (by decide))

/-- Settles O34: the two ends of the removal. -/
theorem lbConsumeRemoves : Obligations.LbConsumeRemoves := by
  refine fun s hs => ⟨fun hready => ?notInit, fun hready hc => ?empty, fun hready hc => ?packet⟩
  case notInit => exact exec_of_body_error rfl hs (requireInit_bind_of_notReady hready _)
  case empty => exact exec_of_body_ok rfl hs (lbConsumeBody_of_empty hready hc)
  case packet => exact exec_of_body_ok rfl hs (lbConsumeBody_of_packet hready hc)

end Sys2Proof.Machine

/-! ## The lifetime of the view (R81) -/

namespace Sys2Proof.Machine

open Sys2Proof

/-! ### The operations that write only at the write position keep the view -/

section Operations

variable (b : Netblk)

theorem lbEnqueue_view (p : Bytes) : (lbEnqueue p b).1.view = b.view := by
  rcases lbEnqueue_cases p b with ⟨-, h⟩ | ⟨-, -, h⟩ | ⟨-, -, h⟩ <;> rw [h]
  exact pushPacket_view b p

/-- R80: a removal ends the view, also on an empty queue. -/
theorem lbConsume_view : (lbConsume b).1.view = false := by
  rcases lbConsume_cases b with ⟨-, h⟩ | ⟨-, h⟩ <;> rw [h]
  exact popPacket_view _

theorem ipSend_view (dst : Word) (proto : Byte) (payload : Bytes) : (ipSend dst proto payload b).1.view = b.view := by
  rcases ipSend_cases dst proto payload b with ⟨-, h⟩ | ⟨-, -, h⟩ | ⟨-, -, h⟩ <;> rw [h]
  exact lbEnqueue_view b _

theorem icmpSend_view (type : Byte) (dst idseq : Word) (data : Bytes) :
    (icmpSend type dst idseq data b).1.view = b.view := by
  rcases icmpSend_cases type dst idseq data b with ⟨-, h⟩ | ⟨-, h⟩ <;> rw [h]
  exact ipSend_view b _ _ _

theorem icmpHandle_view (src : Word) (d : Bytes) : (icmpHandle src d b).1.view = b.view := by
  rcases icmpHandle_cases src d b with ⟨-, h⟩ | ⟨-, -, h⟩ | ⟨-, -, h⟩ | ⟨-, -, -, h⟩ <;> rw [h]
  · exact (icmpSend_view _ _ _ _ _).trans (emit_view b _)
  · exact emit_view b _
  · exact emit_view b _

end Operations

/-! ### The view after a command -/

/-- R81: the view that a command leaves of a block when it ends without a fault. -/
def viewAfter : Instr → Netblk → Bool
  | .lbRecv, b => decide (b.queue.count ≠ 0)
  | .lbConsume, _ | .ipProcess, _ | .netInit, _ => false
  | _, b => b.view

section Bodies

variable {b c : Netblk}

theorem lbRecvBody_view (h : lbRecvBody b = .ok c) : c.view = decide (b.queue.count ≠ 0) := by
  obtain ⟨-, -, h⟩ := bind_eq_ok h
  split at h <;> cases h
  · next hc => simp [hc]
  · next hc => simp [hc]

theorem lbSendBody_view (h : lbSendBody b = .ok c) : c.view = b.view := by
  obtain ⟨-, -, h⟩ := bind_eq_ok h
  obtain ⟨p, -, h⟩ := bind_eq_ok h
  cases h
  exact lbEnqueue_view b p

theorem lbConsumeBody_view (h : lbConsumeBody b = .ok c) : c.view = false := by
  obtain ⟨-, -, h⟩ := bind_eq_ok h
  cases h
  exact lbConsume_view b

theorem netInitBody_view (h : netInitBody b = .ok c) : c.view = false := by
  unfold netInitBody at h
  split at h <;> cases h
  rfl

/-- The header's bytes go to BUF and RES0 and are not looked at here. -/
theorem ipBuildHdrBody_view (h : ipBuildHdrBody b = .ok c) : c.view = b.view := by
  obtain ⟨proto, -, h⟩ := bind_eq_ok h
  obtain ⟨-, -, h⟩ := bind_eq_ok h
  generalize buildHeader b.arg0 proto b.arg2.toNat = header at h
  split at h <;> cases h <;> rfl

theorem ipParseHdrBody_view (h : ipParseHdrBody b = .ok c) : c.view = b.view := by
  obtain ⟨d, -, h⟩ := bind_eq_ok h
  split at h <;> cases h <;> rfl

theorem ipSendBody_view (h : ipSendBody b = .ok c) : c.view = b.view := by
  obtain ⟨proto, -, h⟩ := bind_eq_ok h
  obtain ⟨-, -, h⟩ := bind_eq_ok h
  obtain ⟨d, -, h⟩ := bind_eq_ok h
  cases h
  exact ipSend_view b _ _ _

/-- R97: the drain itself ends with the view cleared, whatever its iterations did. -/
theorem ipProcessBody_view (h : ipProcessBody b = .ok c) : c.view = false := by
  obtain ⟨-, -, h⟩ := bind_eq_ok h
  cases h
  rfl

theorem icmpBuildBody_view {type : Byte} (h : icmpBuildBody type b = .ok c) : c.view = b.view := by
  obtain ⟨d, -, h⟩ := bind_eq_ok h
  obtain ⟨-, -, h⟩ := bind_eq_ok h
  split at h <;> cases h <;> rfl

theorem icmpSendBody_view {type : Byte} (h : icmpSendBody type b = .ok c) : c.view = b.view := by
  obtain ⟨-, -, h⟩ := bind_eq_ok h
  obtain ⟨d, -, h⟩ := bind_eq_ok h
  cases h
  exact icmpSend_view b _ _ _ _

theorem icmpHandleBody_view (h : icmpHandleBody b = .ok c) : c.view = b.view := by
  obtain ⟨-, -, h⟩ := bind_eq_ok h
  obtain ⟨d, -, h⟩ := bind_eq_ok h
  cases h
  exact icmpHandle_view b _ _

/-- R81: what each command does to the view when it ends. -/
theorem commandBody_view {i : Instr} (h : commandBody i b = .ok c) : c.view = viewAfter i b := by
  cases i with
  | csumClear | csumFinal | ipIsLoopback | icmpInit => cases h; rfl
  | csumFeed | csumCalc =>
    obtain ⟨d, -, h⟩ := bind_eq_ok h
    cases h
    rfl
  | lbSend => exact lbSendBody_view h
  | lbRecv => exact lbRecvBody_view h
  | lbConsume => exact lbConsumeBody_view h
  | netInit => exact netInitBody_view h
  | ipBuildHdr => exact ipBuildHdrBody_view h
  | ipParseHdr => exact ipParseHdrBody_view h
  | ipSend => exact ipSendBody_view h
  | ipProcess => exact ipProcessBody_view h
  | icmpBuildReq | icmpBuildRep => exact icmpBuildBody_view h
  | icmpSendReq | icmpSendRep => exact icmpSendBody_view h
  | icmpHandle => exact icmpHandleBody_view h
  | rd8 | wr8 | rd32 | wr32 => cases h

/-- R63 step 2: the command's own word in CMD has no part in the view it leaves. -/
theorem viewAfter_cmd (i : Instr) (b : Netblk) (w : Word) : viewAfter i { b with cmd := w } = viewAfter i b := by
  cases i <;> rfl

/-- R81: after NET_INIT no check of LB_RECV, LB_CONSUME or IP_PROCESS is left to fail. -/
theorem commandBody_ok_of_ready {i : Instr} (hi : i = .lbRecv ∨ i = .lbConsume ∨ i = .ipProcess)
    (h : b.netReady = true) : ∃ c, commandBody i b = .ok c := by
  rcases hi with rfl | rfl | rfl
  · by_cases hc : b.queue.count = 0
    · exact ⟨_, lbRecvBody_of_empty h hc⟩
    · exact ⟨_, lbRecvBody_of_packet h hc⟩
  · exact ⟨_, lbConsumeBody_ok h⟩
  · exact ⟨_, requireInit_bind_of_ready h _⟩

end Bodies

/-! ### The view after an instruction -/

theorem readByte_view (b : Netblk) (a : Nat) : (readByte b a).1.view = b.view := by
  unfold readByte
  repeat' split
  all_goals rfl

theorem writeByte_view (a : Nat) (v : Byte) (b : Netblk) : (writeByte a v b).view = b.view := by
  unfold writeByte
  split <;> rfl

theorem readWord_view (b : Netblk) (a : Addr) : (readWord b a).1.view = b.view := by
  unfold readWord
  split <;> rfl

theorem writeWord_view (r : Option Reg) (v : Word) (b : Netblk) : (writeWord r v b).view = b.view := by
  unfold writeWord
  split <;> rfl

/-- R22, R60: an instruction that starts a command is that command, which has a command word. -/
theorem exec_of_startedCommand {i j : Instr} (h : startedCommand i = some j) (s : State) :
    exec i s = exec j s ∧ ∃ w, commandWord j = some w := by
  cases i with
  | rd8 | wr8 | rd32 => cases h
  | wr32 a v =>
    obtain ⟨rfl, h⟩ := Option.ite_none_right_eq_some.mp h
    have hw := commandWord_of_decodeCommand h
    exact ⟨exec_wr32_cmd_legal hw s, v, hw⟩
  | _ =>
    cases h
    exact ⟨rfl, _, rfl⟩

section Exec

variable {i j : Instr} {s t : State}

/-- R81: no transaction of the port ends or begins a view by itself. -/
theorem exec_view_of_no_command (h : startedCommand i = none) (ht : exec i s = .next t) : t.view = s.view := by
  cases i with
  | rd8 a => cases ht; exact readByte_view s.toNetblk a.toNat
  | wr8 a v => cases ht; exact writeByte_view a.toNat v s.toNetblk
  | rd32 a => cases ht; exact readWord_view s.toNetblk a
  | wr32 a v =>
    by_cases ha : a = 0
    · subst ha
      rw [exec_wr32_cmd_illegal h, runCommand_eq] at ht
      cases ht
      rcases commandSequence_cases v (fun _ => .error .illegal) s.toNetblk with ⟨-, h⟩ | ⟨-, f, -, h⟩ | ⟨-, c, hc, -⟩
      · rw [h]
      · rw [h]
      · cases hc
    · rw [exec_wr32_of_ne_cmd ha] at ht
      cases ht
      exact writeWord_view (regAt a) v s.toNetblk
  | _ => cases h

/-- R63, R81: a command leaves the view as it was, halted or faulting, or ends with the view of `viewAfter`. -/
theorem exec_view_of_command (hj : startedCommand i = some j) (ht : exec i s = .next t) :
    t.view = s.view ∨ t.view = viewAfter j s.toNetblk := by
  obtain ⟨heq, w, hw⟩ := exec_of_startedCommand hj s
  rw [heq, exec_of_commandWord hw, runCommand_eq] at ht
  cases ht
  rcases commandSequence_cases w (commandBody j) s.toNetblk with ⟨-, h⟩ | ⟨-, f, -, h⟩ | ⟨-, c, hc, h⟩ <;> rw [h]
  · exact .inl rfl
  · exact .inl rfl
  · exact .inr ((commandBody_view hc).trans (viewAfter_cmd j s.toNetblk w))

/-- R81: on a block that is not halted, a command whose body ends leaves the view of `viewAfter`. -/
theorem exec_view_of_body_ok (hs : s.fault = 0) (hj : startedCommand i = some j)
    (hok : ∀ w, ∃ c, commandBody j { s.toNetblk with cmd := w } = .ok c) (ht : exec i s = .next t) :
    t.view = viewAfter j s.toNetblk := by
  obtain ⟨heq, w, hw⟩ := exec_of_startedCommand hj s
  obtain ⟨c, hc⟩ := hok w
  rw [heq, exec_of_body_ok hw hs hc] at ht
  cases ht
  exact (commandBody_view hc).trans (viewAfter_cmd j s.toNetblk w)

/-- R81: an instruction that changes the view started a command, and that command's end decides the view. -/
theorem exec_view_changed (ht : exec i s = .next t) (hne : t.view ≠ s.view) :
    ∃ j, startedCommand i = some j ∧ t.view = viewAfter j s.toNetblk := by
  cases hj : startedCommand i with
  | none => exact absurd (exec_view_of_no_command hj ht) hne
  | some j => exact ⟨j, rfl, (exec_view_of_command hj ht).resolve_left hne⟩

end Exec

/-- R81: a command that ends with a view where there was none is LB_RECV on a queue with a packet. -/
theorem viewAfter_begins {j : Instr} {b : Netblk} (hb : b.view = false) (h : viewAfter j b = true) :
    j = .lbRecv ∧ b.queue.count ≠ 0 := by
  cases j with
  | lbRecv => exact ⟨rfl, of_decide_eq_true h⟩
  | lbConsume | ipProcess | netInit => cases h
  | _ => exact absurd (hb.symm.trans h) Bool.noConfusion

/-- R81: the commands that end a view. -/
theorem viewAfter_ends {j : Instr} {b : Netblk} (hb : b.view = true) (h : viewAfter j b = false) :
    (j = .lbRecv ∧ b.queue.count = 0) ∨ j = .lbConsume ∨ j = .ipProcess ∨ j = .netInit := by
  cases j with
  | lbRecv => exact .inl ⟨rfl, not_not.mp (of_decide_eq_false h)⟩
  | lbConsume => exact .inr (.inl rfl)
  | ipProcess => exact .inr (.inr (.inl rfl))
  | netInit => exact .inr (.inr (.inr rfl))
  | _ => exact absurd (hb.symm.trans h) Bool.noConfusion

/-- Settles O37: `viewAfter` is read off for the commands that must end, and a view that changed was decided by it. -/
theorem viewLifetime : Obligations.ViewLifetime := by
  refine ⟨rfl, fun i s t ht => ⟨?recv, ?clear, ?init, ?begins, ?ends⟩⟩
  case recv =>
    intro hs hready hi
    rw [exec_view_of_body_ok hs hi (fun _ => commandBody_ok_of_ready (.inl rfl) hready) ht]
    exact decide_eq_true_iff
  case clear =>
    rintro hs hready (hi | hi)
    · exact exec_view_of_body_ok hs hi (fun _ => commandBody_ok_of_ready (.inr (.inl rfl)) hready) ht
    · exact exec_view_of_body_ok hs hi (fun _ => commandBody_ok_of_ready (.inr (.inr rfl)) hready) ht
  case init =>
    intro hs hready hi
    exact exec_view_of_body_ok hs hi (fun _ => ⟨_, if_neg (ne_true_of_eq_false hready)⟩) ht
  case begins =>
    intro hview hview'
    obtain ⟨j, hj, h⟩ := exec_view_changed ht (by rw [hview, hview']; decide)
    obtain ⟨rfl, hc⟩ := viewAfter_begins hview (h.symm.trans hview')
    exact ⟨hj, hc⟩
  case ends =>
    intro hview hview'
    obtain ⟨j, hj, h⟩ := exec_view_changed ht (by rw [hview, hview']; decide)
    rw [hj]
    simpa only [Option.some.injEq] using viewAfter_ends hview (h.symm.trans hview')

end Sys2Proof.Machine

/-! ## The header (R88, R89) -/

namespace Sys2Proof.Machine

open Sys2Proof

section Header

variable (dst : Word) (proto : Byte) (plen : Nat)

/-- R88: the fields in their order, the checksum field zero. -/
theorem headerZeroed_eq :
    headerZeroed dst proto plen = [0x45, 0x00] ++ bytes16 (BitVec.ofNat 16 (20 + plen)) ++
      [0x00, 0x00, 0x00, 0x00, 64, proto, 0x00, 0x00, 127, 0, 0, 1] ++ bytes32 dst := rfl

/-- R89: the checksum goes between the protocol and the source address. -/
theorem patch16_headerZeroed (c : Half) :
    patch16 (headerZeroed dst proto plen) 10 c = [0x45, 0x00] ++ bytes16 (BitVec.ofNat 16 (20 + plen)) ++
      [0x00, 0x00, 0x00, 0x00, 64, proto] ++ bytes16 c ++ [127, 0, 0, 1] ++ bytes32 dst := rfl

theorem headerZeroed_length : (headerZeroed dst proto plen).length = 20 := rfl

theorem patch16_length {s : Bytes} {k : Nat} (hk : k + 2 ≤ s.length) (v : Half) : (patch16 s k v).length = s.length := by
  simp only [patch16, bytes16, List.length_append, List.length_take, List.length_drop, List.length_cons, List.length_nil]
  omega

theorem buildHeader_length : (buildHeader dst proto plen).length = 20 :=
  patch16_length (s := headerZeroed dst proto plen) (k := 10) (by rw [headerZeroed_length]; decide) _

/-- R76, R89: the checksum field is even, and zero when the checksum is taken. -/
theorem checksum_buildHeader : checksum (buildHeader dst proto plen) = 0 := by
  have hk : 10 + 1 < (headerZeroed dst proto plen).length := by rw [headerZeroed_length]; decide
  exact (checksum_eq_zero_iff _).mpr (fold_wordSum_patch16_checksum (by decide) hk rfl rfl)

end Header

/-- Settles O38: the layout is the header with its zero field patched, and the self-verification law gives its checksum. -/
theorem headerLayout : Obligations.HeaderLayout := by
  intro dst proto plen _
  refine ⟨⟨checksum (headerZeroed dst proto plen), ?_, ?_⟩, buildHeader_length dst proto plen,
    checksum_buildHeader dst proto plen⟩
  · rw [headerZeroed_eq]
  · exact patch16_headerZeroed dst proto plen _

end Sys2Proof.Machine

/-! ## What keeps `net_ready` (R32, R91) -/

namespace Sys2Proof.Machine

open Sys2Proof

/-- `c` is `b` with at most another queue, another view and another trace: all that the queue's users write (R78 to R80, R90,
R96, R102, R103). -/
def SameButQueue (b c : Netblk) : Prop :=
  ∃ (q : Queue) (v : Bool) (es : List Event), c = { b with queue := q, view := v, events := es }

namespace SameButQueue

theorem refl (b : Netblk) : SameButQueue b b := ⟨b.queue, b.view, b.events, rfl⟩

theorem trans {b c d : Netblk} (h : SameButQueue b c) (k : SameButQueue c d) : SameButQueue b d := by
  obtain ⟨_, _, _, rfl⟩ := h
  obtain ⟨q, v, es, rfl⟩ := k
  exact ⟨q, v, es, rfl⟩

theorem netReady {b c : Netblk} (h : SameButQueue b c) : c.netReady = b.netReady := by
  obtain ⟨_, _, _, rfl⟩ := h
  rfl

theorem emit (b : Netblk) (e : Event) : SameButQueue b (Machine.emit e b) := ⟨_, _, _, rfl⟩

theorem lbEnqueue (p : Bytes) (b : Netblk) : SameButQueue b (lbEnqueue p b).1 := by
  rcases lbEnqueue_cases p b with ⟨-, h⟩ | ⟨-, -, h⟩ | ⟨-, -, h⟩ <;> rw [h]
  · exact refl b
  · exact refl b
  · exact ⟨_, _, _, rfl⟩

theorem lbConsume (b : Netblk) : SameButQueue b (lbConsume b).1 := by
  rcases lbConsume_cases b with ⟨-, h⟩ | ⟨-, h⟩ <;> rw [h] <;> exact ⟨_, _, _, rfl⟩

theorem ipSend (dst : Word) (proto : Byte) (payload : Bytes) (b : Netblk) :
    SameButQueue b (ipSend dst proto payload b).1 := by
  rcases ipSend_cases dst proto payload b with ⟨-, h⟩ | ⟨-, -, h⟩ | ⟨-, -, h⟩ <;> rw [h]
  · exact refl b
  · exact refl b
  · exact lbEnqueue _ b

theorem icmpSend (type : Byte) (dst idseq : Word) (data : Bytes) (b : Netblk) :
    SameButQueue b (icmpSend type dst idseq data b).1 := by
  rcases icmpSend_cases type dst idseq data b with ⟨-, h⟩ | ⟨-, h⟩ <;> rw [h]
  · exact refl b
  · exact ipSend _ _ _ b

theorem icmpHandle (src : Word) (d : Bytes) (b : Netblk) : SameButQueue b (icmpHandle src d b).1 := by
  rcases icmpHandle_cases src d b with ⟨-, h⟩ | ⟨-, -, h⟩ | ⟨-, -, h⟩ | ⟨-, -, -, h⟩ <;> rw [h]
  · exact refl b
  · exact (emit b _).trans (icmpSend _ _ _ _ _)
  · exact emit b _
  · exact emit b _

theorem drainOne (b : Netblk) : SameButQueue b (drainOne b) := by
  simp only [Machine.drainOne]
  split
  · exact (icmpHandle _ _ b).trans (lbConsume _)
  · exact lbConsume b

theorem drainLoop (fuel k : Nat) (b : Netblk) : SameButQueue b (drainLoop fuel k b).1 := by
  induction fuel generalizing k b with
  | zero => exact refl b
  | succ fuel ih =>
    rw [drainLoop_succ]
    split
    · exact refl b
    · exact (drainOne b).trans (ih (k + 1) _)

theorem ipProcess (b : Netblk) : SameButQueue b (ipProcess b).1 :=
  (drainLoop (drainFuel b) 0 b).trans ⟨_, _, _, rfl⟩

end SameButQueue

/-- R32: a command other than NET_INIT leaves `net_ready` as it met it. -/
theorem commandBody_netReady {i : Instr} {b c : Netblk} (hi : i ≠ .netInit) (h : commandBody i b = .ok c) :
    c.netReady = b.netReady := by
  cases i with
  | csumClear | csumFinal | ipIsLoopback | icmpInit => cases h; rfl
  | csumFeed | csumCalc =>
    obtain ⟨d, -, h⟩ := bind_eq_ok h
    cases h
    rfl
  | lbSend =>
    obtain ⟨-, -, h⟩ := bind_eq_ok h
    obtain ⟨p, -, h⟩ := bind_eq_ok h
    cases h
    exact (SameButQueue.lbEnqueue p b).netReady
  | lbRecv =>
    obtain ⟨-, -, h⟩ := bind_eq_ok h
    split at h <;> cases h <;> rfl
  | lbConsume =>
    obtain ⟨-, -, h⟩ := bind_eq_ok h
    cases h
    exact (SameButQueue.lbConsume b).netReady
  | netInit => exact absurd rfl hi
  | ipBuildHdr =>
    obtain ⟨proto, -, h⟩ := bind_eq_ok h
    obtain ⟨-, -, h⟩ := bind_eq_ok h
    generalize buildHeader b.arg0 proto b.arg2.toNat = header at h
    split at h <;> cases h <;> rfl
  | ipParseHdr =>
    obtain ⟨d, -, h⟩ := bind_eq_ok h
    split at h <;> cases h <;> rfl
  | ipSend =>
    obtain ⟨proto, -, h⟩ := bind_eq_ok h
    obtain ⟨-, -, h⟩ := bind_eq_ok h
    obtain ⟨d, -, h⟩ := bind_eq_ok h
    cases h
    exact (SameButQueue.ipSend b.arg0 proto d b).netReady
  | ipProcess =>
    obtain ⟨-, -, h⟩ := bind_eq_ok h
    cases h
    exact (SameButQueue.ipProcess b).netReady
  | icmpBuildReq | icmpBuildRep =>
    obtain ⟨d, -, h⟩ := bind_eq_ok h
    obtain ⟨-, -, h⟩ := bind_eq_ok h
    split at h <;> cases h <;> rfl
  | icmpSendReq | icmpSendRep =>
    obtain ⟨-, -, h⟩ := bind_eq_ok h
    obtain ⟨d, -, h⟩ := bind_eq_ok h
    cases h
    exact (SameButQueue.icmpSend _ b.arg0 b.arg1 d b).netReady
  | icmpHandle =>
    obtain ⟨-, -, h⟩ := bind_eq_ok h
    obtain ⟨d, -, h⟩ := bind_eq_ok h
    cases h
    exact (SameButQueue.icmpHandle b.arg0 d b).netReady
  | rd8 | wr8 | rd32 | wr32 => cases h

/-- `c` agrees with `b` in the state behind the port that no transaction reaches: the accumulator, the queue, the view,
`net_ready` and the trace. -/
structure SameHidden (b c : Netblk) : Prop where
  csum : c.csum = b.csum
  queue : c.queue = b.queue
  view : c.view = b.view
  netReady : c.netReady = b.netReady
  events : c.events = b.events

namespace SameHidden

theorem readByte (b : Netblk) (a : Nat) : SameHidden b (readByte b a).1 := by
  unfold Machine.readByte
  repeat' split
  all_goals exact ⟨rfl, rfl, rfl, rfl, rfl⟩

theorem writeByte (a : Nat) (v : Byte) (b : Netblk) : SameHidden b (writeByte a v b) := by
  unfold Machine.writeByte
  split <;> exact ⟨rfl, rfl, rfl, rfl, rfl⟩

theorem readWord (b : Netblk) (a : Addr) : SameHidden b (readWord b a).1 := by
  unfold Machine.readWord
  split <;> exact ⟨rfl, rfl, rfl, rfl, rfl⟩

theorem writeWord (r : Option Reg) (v : Word) (b : Netblk) : SameHidden b (writeWord r v b) := by
  unfold Machine.writeWord
  split <;> exact ⟨rfl, rfl, rfl, rfl, rfl⟩

/-- R62: an illegal word written to CMD faults, or is reported by a halted block. -/
theorem illegalCommand (w : Word) (b : Netblk) : SameHidden b (illegalCommand w b) := by
  rcases commandSequence_cases w (fun _ => .error .illegal) b with ⟨-, h⟩ | ⟨-, f, -, h⟩ | ⟨-, c, hc, -⟩
  · rw [Machine.illegalCommand, h]
    exact ⟨rfl, rfl, rfl, rfl, rfl⟩
  · rw [Machine.illegalCommand, h]
    exact ⟨rfl, rfl, rfl, rfl, rfl⟩
  · cases hc

/-- R38 to R41: an instruction that starts no command keeps out of the state behind the port. -/
theorem exec {i : Instr} {s t : State} (hi : startedCommand i = none) (ht : Machine.exec i s = .next t) :
    SameHidden s.toNetblk t.toNetblk := by
  cases i with
  | rd8 a => cases ht; exact readByte s.toNetblk a.toNat
  | wr8 a v => cases ht; exact writeByte a.toNat v s.toNetblk
  | rd32 a => cases ht; exact readWord s.toNetblk a
  | wr32 a v =>
    by_cases ha : a = 0
    · subst ha
      rw [exec_wr32_cmd_illegal hi, runCommand_eq] at ht
      cases ht
      exact illegalCommand v s.toNetblk
    · rw [exec_wr32_of_ne_cmd ha] at ht
      cases ht
      exact writeWord (regAt a) v s.toNetblk
  | _ => cases hi

end SameHidden

/-- R32, R91: an instruction that does not start NET_INIT leaves `net_ready`. -/
theorem exec_netReady {i : Instr} {s t : State} (hi : startedCommand i ≠ some .netInit) (ht : exec i s = .next t) :
    t.netReady = s.netReady := by
  cases hj : startedCommand i with
  | none => exact (SameHidden.exec hj ht).netReady
  | some j =>
    obtain ⟨heq, w, hw⟩ := exec_of_startedCommand hj s
    rw [heq, exec_of_commandWord hw, runCommand_eq] at ht
    cases ht
    rcases commandSequence_cases w (commandBody j) s.toNetblk with ⟨-, h⟩ | ⟨-, f, -, h⟩ | ⟨-, c, hc, h⟩ <;> rw [h]
    exact commandBody_netReady (b := { s.toNetblk with cmd := w }) (fun hnet => hi (hnet ▸ hj)) hc

end Sys2Proof.Machine

/-! ## The IP commands on a block that is not halted (R91 to R95) -/

namespace Sys2Proof.Machine

open Sys2Proof

section Bodies

variable {b : Netblk}

theorem netInitBody_of_ready (h : b.netReady = true) : netInitBody b = .error .reinit := if_pos h

theorem netInitBody_of_notReady (h : b.netReady = false) :
    netInitBody b = .ok ({ b with
      netReady := true, queue := { b.queue with rd := 0, wr := 0, count := 0 }, view := false }.setStatus .ok) :=
  if_neg (ne_true_of_eq_false h)

/-- R59: a command with a proto8 operand goes on when bits [31:8] are zero. -/
theorem proto8_bind_of_zero {w : Word} (h : w.extractLsb' 8 24 = 0) (f : Byte → Except FaultCode Netblk) :
    (proto8 w >>= f) = f (w.extractLsb' 0 8) := by
  rcases proto8_cases w with ⟨-, hp⟩ | ⟨hne, -⟩
  · rw [hp]
    rfl
  · exact absurd h hne

/-- R59: any other operand is F_BAD_OPERAND, whatever follows the check. -/
theorem proto8_bind_of_ne {w : Word} (h : w.extractLsb' 8 24 ≠ 0) (f : Byte → Except FaultCode Netblk) :
    (proto8 w >>= f) = .error .badOperand := by
  rcases proto8_cases w with ⟨hzero, -⟩ | ⟨-, hp⟩
  · exact absurd hzero h
  · rw [hp]
    rfl

theorem ipBuildHdrBody_badAddr (hp : b.arg1.extractLsb' 8 24 = 0)
    (ha : b.arg3.toNat < 0x1000 ∨ 0x2000 < b.arg3.toNat + 20) : ipBuildHdrBody b = .error .badAddr := by
  have hspan : checkDst b.arg3.toNat 20 = .error .badAddr := checkDst_badAddr (by decide) (by omega)
  rw [ipBuildHdrBody, proto8_bind_of_zero hp, hspan]
  rfl

/-- R93: with a good operand and a good span the length decides. The header has a name, so that no later comparison of
states computes its checksum. -/
theorem ipBuildHdrBody_of_checked (hp : b.arg1.extractLsb' 8 24 = 0) (hlo : 0x1000 ≤ b.arg3.toNat)
    (hhi : b.arg3.toNat + 20 ≤ 0x2000) {header : Bytes}
    (hheader : buildHeader b.arg0 (b.arg1.extractLsb' 0 8) b.arg2.toNat = header) :
    ipBuildHdrBody b =
      if 20 + b.arg2.toNat > 1500 then .ok (b.setStatus .invalidPacket)
      else .ok ({ memWrite b.arg3.toNat header b with res0 := zext32 (be16 header 10) }.setStatus .ok) := by
  rw [ipBuildHdrBody, proto8_bind_of_zero hp, (checkDst_ok_iff b.arg3.toNat 20).mpr (.inr ⟨hlo, hhi⟩), hheader]
  rfl

theorem ipParseHdrBody_error {f : FaultCode} (h : memRead b b.arg0.toNat b.arg1.toNat = .error f) :
    ipParseHdrBody b = .error f := by
  rw [ipParseHdrBody, h]
  rfl

/-- R94: with a readable span the length decides. -/
theorem ipParseHdrBody_of_span {d : Bytes} (h : memRead b b.arg0.toNat b.arg1.toNat = .ok d) :
    ipParseHdrBody b =
      if d.length < 20 then .ok (b.setStatus .droppedShort)
      else .ok ({ b with
        res0 := be32 d 0, res1 := be32 d 4, res2 := be32 d 8, res3 := be32 d 12, res4 := be32 d 16 }.setStatus .ok) := by
  rw [ipParseHdrBody, h]
  rfl

theorem ipSendBody_error (hp : b.arg1.extractLsb' 8 24 = 0) (hr : b.netReady = true) {f : FaultCode}
    (h : memRead b b.arg2.toNat b.arg3.toNat = .error f) : ipSendBody b = .error f := by
  rw [ipSendBody, proto8_bind_of_zero hp, requireInit_bind_of_ready hr, h]
  rfl

theorem ipSendBody_ok (hp : b.arg1.extractLsb' 8 24 = 0) (hr : b.netReady = true) {d : Bytes}
    (h : memRead b b.arg2.toNat b.arg3.toNat = .ok d) :
    ipSendBody b = .ok ((ipSend b.arg0 (b.arg1.extractLsb' 0 8) d b).1.setStatus
      (ipSend b.arg0 (b.arg1.extractLsb' 0 8) d b).2) := by
  rw [ipSendBody, proto8_bind_of_zero hp, requireInit_bind_of_ready hr, h]
  rfl

end Bodies

theorem word32_toNat (hi lo : Half) : (word32 hi lo).toNat = hi.toNat * 65536 + lo.toNat := by
  have hhi := hi.isLt
  have hlo := lo.isLt
  rw [word32, BitVec.toNat_ofNat]
  exact Nat.mod_eq_of_lt (by omega)

/-- R12: a big-endian word by its four bytes. -/
theorem be32_toNat (d : Bytes) (i : Nat) :
    (be32 d i).toNat = (byteAt d i).toNat * 2 ^ 24 + (byteAt d (i + 1)).toNat * 2 ^ 16 +
      (byteAt d (i + 2)).toNat * 2 ^ 8 + (byteAt d (i + 3)).toNat := by
  have hlast : i + 2 + 1 = i + 3 := rfl
  rw [be32, word32_toNat, be16, be16, word16_toNat, word16_toNat, hlast]
  omega

/-- R87: the first octet of an address is its value divided by 2^24. -/
theorem isLoopback_iff (d : Word) : isLoopback d = true ↔ d.toNat / 2 ^ 24 = 127 := by
  have hd := d.isLt
  rw [isLoopback, beq_iff_eq, extractLsb'_eq_iff, Nat.mod_eq_of_lt (by omega)]
  rfl

/-- R90: a command that sends an IPv4 packet and reports the outcome ends as `State.ipSends` says. -/
theorem ipSends_eq (s : State) (w dst : Word) (proto : Byte) (d : Bytes) :
    { s with
      toNetblk := (ipSend dst proto d { s.toNetblk with cmd := w }).1.setStatus
        (ipSend dst proto d { s.toNetblk with cmd := w }).2 } = s.ipSends w dst proto d := by
  unfold State.ipSends
  rcases ipSend_cases dst proto d { s.toNetblk with cmd := w } with
    ⟨hroute, h⟩ | ⟨hroute, hlong, h⟩ | ⟨hroute, hfits, h⟩ <;> rw [h]
  · exact (if_pos (beq_eq_false_iff_ne.mp hroute)).symm
  · rw [if_neg (not_not.mpr (beq_iff_eq.mp hroute)), if_pos hlong]
    rfl
  · rw [if_neg (not_not.mpr (beq_iff_eq.mp hroute)), if_neg (Nat.not_lt.mpr hfits), ← sends_eq]

/-- Settles O39: the two ends of the body, and `exec_netReady` for everything else. -/
theorem netInitBringsUp : Obligations.NetInitBringsUp := by
  refine ⟨fun s hs => ⟨fun hready => ?reinit, fun hready => ?init⟩, fun i s t ht hready hready' => ?only⟩
  case reinit => exact exec_of_body_error rfl hs (netInitBody_of_ready hready)
  case init => exact exec_of_body_ok rfl hs (netInitBody_of_notReady hready)
  case only =>
    by_contra hi
    have hkept := exec_netReady hi ht
    rw [hready, hready'] at hkept
    cases hkept

/-- Settles O41: the body's checks in order; the stored bytes are read back by the laws of BUF. -/
theorem ipBuildHdrStores : Obligations.IpBuildHdrStores := by
  intro s hs
  refine ⟨fun hp => ?operand, fun hp ha => ?address, fun hp hlo hhi => ⟨fun hlong => ?long, fun hfits => ?header⟩⟩
  case operand => exact exec_of_body_error rfl hs (proto8_bind_of_ne hp _)
  case address => exact exec_of_body_error rfl hs (ipBuildHdrBody_badAddr hp ha)
  all_goals
    obtain ⟨header, hheader⟩ : ∃ header, buildHeader s.arg0 (s.arg1.extractLsb' 0 8) s.arg2.toNat = header := ⟨_, rfl⟩
    have hbody := ipBuildHdrBody_of_checked (b := { s.toNetblk with cmd := 0x32 }) hp hlo hhi hheader
  case long => exact exec_of_body_ok rfl hs (hbody.trans (if_pos hlong))
  case header =>
    have hlen : header.length = 20 := hheader ▸ buildHeader_length _ _ _
    refine ⟨header, s.buf.writeBytes s.arg3.toNat header, hheader.symm,
      exec_of_body_ok rfl hs (hbody.trans (if_neg (Nat.not_lt.mpr hfits))), fun i hi => ?_, fun x hx => ?_⟩
    · rw [byteAt_of_lt (hlen.symm ▸ hi)]
      exact Memory.read_writeBytes_inside (hlen.symm ▸ hi)
    · exact Memory.read_writeBytes_outside (hlen.symm ▸ hx)

/-- Settles O42: the span is read from the block with CMD already written, and its length chooses the end. -/
theorem ipParseHdrReports : Obligations.IpParseHdrReports := by
  intro s hs
  have hspan := memRead_cmd s.toNetblk 0x33 s.arg0.toNat s.arg1.toNat
  refine ⟨fun f hf => ?fault, fun d hd => ⟨fun hshort => ?short, fun hfull => ?words⟩⟩
  case fault =>
    exact exec_of_body_error rfl hs (ipParseHdrBody_error (b := { s.toNetblk with cmd := 0x33 }) (hspan.trans hf))
  all_goals have hbody := ipParseHdrBody_of_span (b := { s.toNetblk with cmd := 0x33 }) (hspan.trans hd)
  case short => exact exec_of_body_ok rfl hs (hbody.trans (if_pos hshort))
  case words =>
    exact ⟨fun i => be32 d (4 * i), fun i _ => be32_toNat d (4 * i),
      exec_of_body_ok rfl hs (hbody.trans (if_neg (Nat.not_lt.mpr hfull)))⟩

/-- Settles O40: the body cannot fault, and the octet is `isLoopback_iff`. -/
theorem ipIsLoopbackTests : Obligations.IpIsLoopbackTests := by
  intro s hs
  have hexec : exec .ipIsLoopback s = .next { s with
      cmd := 0x31, res0 := if isLoopback s.arg0 = true then 1 else 0, status := 0x00 } := exec_of_body_ok rfl hs rfl
  refine ⟨fun hin => ?_, fun hout => ?_⟩
  · rw [hexec, if_pos ((isLoopback_iff _).mpr hin)]
  · rw [hexec, if_neg (mt (isLoopback_iff _).mp hout)]

/-- Settles O43: the body's checks in order, and `ipSends_eq` gives what the send does. -/
theorem ipSendSends : Obligations.IpSendSends := by
  intro s hs
  have hspan := memRead_cmd s.toNetblk 0x34 s.arg2.toNat s.arg3.toNat
  refine ⟨fun hp => ?operand, fun hp hready => ?notInit, fun hp hready => ⟨fun f hf => ?fault, fun d hd => ?packet⟩⟩
  case operand => exact exec_of_body_error rfl hs (proto8_bind_of_ne hp _)
  case notInit =>
    exact exec_of_body_error rfl hs ((proto8_bind_of_zero hp _).trans (requireInit_bind_of_notReady hready _))
  case fault =>
    exact exec_of_body_error rfl hs
      (ipSendBody_error (b := { s.toNetblk with cmd := 0x34 }) hp hready (hspan.trans hf))
  case packet =>
    rw [← ipSends_eq s 0x34 s.arg0 (s.arg1.extractLsb' 0 8) d]
    exact exec_of_body_ok rfl hs
      (ipSendBody_ok (b := { s.toNetblk with cmd := 0x34 }) hp hready (hspan.trans hd))

end Sys2Proof.Machine

/-! ## The queue as a list (R30, R78) -/

namespace Sys2Proof.Machine

open Sys2Proof

/-- R30: the write position stands `count` places after the read position. The clause of `Inv` that the order of the
queue rests on. -/
def OnRing (b : Netblk) : Prop := b.queue.wr.val = (b.queue.rd.val + b.queue.count.val) % 16

section QueueList

variable {b c : Netblk}

theorem queued_congr (h : b.queue = c.queue) : queued b = queued c := by
  simp only [queued, h]

theorem onRing_congr (h : b.queue = c.queue) : OnRing b ↔ OnRing c := by
  simp only [OnRing, h]

theorem queued_length (b : Netblk) : (queued b).length = b.queue.count.val := by
  simp [queued]

theorem pushPacket_count_ne_zero (hroom : b.queue.count.val < 16) (p : Bytes) :
    (pushPacket p b).queue.count ≠ 0 := by
  rw [← Fin.val_ne_zero_iff, pushPacket_count_val hroom]
  exact Nat.succ_ne_zero _

/-- R80: the head packet is the oldest one, and its removal leaves the others in order. -/
theorem queued_of_packet (hc : b.queue.count ≠ 0) : queued b = b.head :: queued (popPacket b) := by
  have hcount : b.queue.count.val = (popPacket b).queue.count.val + 1 := by
    have hpop := popPacket_count_val hc
    have hpos := Fin.val_ne_zero_iff.mpr hc
    omega
  have hrd : ∀ k, (b.queue.rd.val + (k + 1)) % 16 = ((popPacket b).queue.rd.val + k) % 16 := fun k => by
    simp only [popPacket_queue, Fin.val_add, Fin.val_one]
    omega
  have hzero : (b.queue.rd.val + 0) % 16 = b.queue.rd.val := by omega
  simp only [queued, hcount, List.range_succ_eq_map, List.map_cons, List.map_map, hzero]
  refine congrArg₂ List.cons rfl (List.map_congr_left fun k _ => ?_)
  simp only [Function.comp_apply, Nat.succ_eq_add_one, hrd]
  rfl

/-- R79: on a ring with room the slot written is no queued packet's, so the new packet comes last. -/
theorem queued_pushPacket (hring : OnRing b) (hroom : b.queue.count.val < 16) (p : Bytes) :
    queued (pushPacket p b) = queued b ++ [p] := by
  have hcount := pushPacket_count_val hroom p
  have hwr : b.queue.wr.val = (b.queue.rd.val + b.queue.count.val) % 16 := hring
  simp only [queued, hcount, List.range_succ, List.map_append, List.map_cons, List.map_nil]
  refine congrArg₂ (· ++ ·) (List.map_congr_left fun k hk => ?_) (congrArg (fun q => [q]) ?_)
  · have hne : b.queue.wr.val ≠ (b.queue.rd.val + k) % 16 := by
      have hlt := List.mem_range.mp hk
      omega
    exact Vector.getElem_set_ne b.queue.wr.isLt _ hne
  · simp only [pushPacket_queue, ← hwr, Vector.getElem_set_self]

theorem onRing_pushPacket (hring : OnRing b) (hroom : b.queue.count.val < 16) (p : Bytes) :
    OnRing (pushPacket p b) := by
  have hwr : b.queue.wr.val = (b.queue.rd.val + b.queue.count.val) % 16 := hring
  rw [OnRing, pushPacket_count_val hroom]
  simp only [pushPacket_queue, Fin.val_add, Fin.val_one]
  omega

theorem onRing_popPacket (hring : OnRing b) (hc : b.queue.count ≠ 0) : OnRing (popPacket b) := by
  have hwr : b.queue.wr.val = (b.queue.rd.val + b.queue.count.val) % 16 := hring
  have hpos := Fin.val_ne_zero_iff.mpr hc
  rw [OnRing, popPacket_count_val hc]
  simp only [popPacket_queue, Fin.val_add, Fin.val_one]
  omega

end QueueList

end Sys2Proof.Machine

/-! ## What one iteration of the drain does to the queue (R96, R98) -/

namespace Sys2Proof.Machine

open Sys2Proof

/-- R101: the type is the first byte of an echo frame, and so the first byte after the header of the packet sent. -/
theorem byteAt_echoPacket_type (dst : Word) (proto type : Byte) (n : Nat) (idseq : Word) (data : Bytes) :
    byteAt (buildHeader dst proto n ++ buildEcho type idseq data) 20 = type := by
  have hheader := buildHeader_length dst proto n
  rw [byteAt, List.getD_append_right _ _ _ _ hheader.le, hheader]
  rfl

theorem byteAt_drop (s : Bytes) (k i : Nat) : byteAt (s.drop k) i = byteAt s (k + i) := by
  simp [byteAt]

section Replies

variable (b : Netblk)

/-- R102: an ICMP send leaves the block, or writes one packet that carries its type. -/
theorem icmpSend_block (type : Byte) (dst idseq : Word) (data : Bytes) :
    (icmpSend type dst idseq data b).1 = b ∨
    (b.queue.count.val ≠ 16 ∧ ∃ p, byteAt p 20 = type ∧ (icmpSend type dst idseq data b).1 = pushPacket p b) := by
  rcases icmpSend_cases type dst idseq data b with ⟨-, h⟩ | ⟨-, h⟩
  · exact .inl (by rw [h])
  · rcases ipSend_cases dst 1 (buildEcho type idseq data) b with ⟨-, hip⟩ | ⟨-, -, hip⟩ | ⟨-, -, hip⟩
    · exact .inl (by rw [h, hip])
    · exact .inl (by rw [h, hip])
    · rcases lbEnqueue_cases (buildHeader dst 1 (buildEcho type idseq data).length ++ buildEcho type idseq data) b with
        ⟨-, hlb⟩ | ⟨-, -, hlb⟩ | ⟨hroom, -, hlb⟩
      · exact .inl (by rw [h, hip, hlb])
      · exact .inl (by rw [h, hip, hlb])
      · exact .inr ⟨hroom, _, byteAt_echoPacket_type dst 1 type _ idseq data, by rw [h, hip, hlb]⟩

/-- R103: the inbound handler writes at most one packet, only for an echo request, and that packet carries the reply's
type. -/
theorem icmpHandle_queue (src : Word) (d : Bytes) :
    (icmpHandle src d b).1.queue = b.queue ∨
    (8 ≤ d.length ∧ byteAt d 0 = 8 ∧ b.queue.count.val ≠ 16 ∧
      ∃ p, byteAt p 20 = 0 ∧ (icmpHandle src d b).1.queue = (pushPacket p b).queue) := by
  rcases icmpHandle_cases src d b with ⟨-, h⟩ | ⟨hlen, htype, h⟩ | ⟨-, -, h⟩ | ⟨-, -, -, h⟩ <;> rw [h]
  · exact .inl rfl
  · rcases icmpSend_block (emit (.echoRequestRx src (be16 d 4) (be16 d 6) (d.drop 8).length) b) 0 src
      (word32 (be16 d 4) (be16 d 6)) (d.drop 8) with hsend | ⟨hroom, p, hp, hsend⟩ <;> rw [hsend]
    · exact .inl rfl
    · exact .inr ⟨hlen, htype, hroom, p, hp, rfl⟩
  · exact .inl rfl
  · exact .inl rfl

end Replies

/-- R98: how many iterations a queued packet can account for: itself, and the reply to it if it is an ICMP echo request. -/
def drainCost (p : Bytes) : Nat := if 28 ≤ p.length ∧ byteAt p 9 = 1 ∧ byteAt p 20 = 8 then 2 else 1

/-- R98: how many iterations a queue can account for. -/
def queueCost (b : Netblk) : Nat := ((queued b).map drainCost).sum

theorem drainCost_pos (p : Bytes) : 1 ≤ drainCost p := by
  unfold drainCost
  split <;> decide

theorem drainCost_le_two (p : Bytes) : drainCost p ≤ 2 := by
  unfold drainCost
  split <;> decide

/-- R98: a reply is no request. -/
theorem drainCost_of_reply {p : Bytes} (h : byteAt p 20 = 0) : drainCost p = 1 :=
  if_neg fun ⟨_, _, htype⟩ => absurd (h.symm.trans htype) (by decide)

theorem count_le_queueCost (b : Netblk) : b.queue.count.val ≤ queueCost b := by
  have hle := List.length_le_sum_of_one_le ((queued b).map drainCost) (by simp [drainCost_pos])
  rwa [List.length_map, queued_length] at hle

theorem queueCost_le (b : Netblk) : queueCost b ≤ 2 * b.queue.count.val := by
  have hle := List.sum_le_card_nsmul ((queued b).map drainCost) 2 (by simp [drainCost_le_two])
  rwa [List.length_map, queued_length, smul_eq_mul, Nat.mul_comm] at hle

section Iteration

variable {b : Netblk}

/-- R96: an ICMP packet is handled while it still occupies its slot, and then removed. -/
theorem drainOne_of_icmp (h : 20 ≤ b.head.length ∧ byteAt b.head 9 = 1) :
    drainOne b = (lbConsume (icmpHandle (be32 b.head 12) (b.head.drop 20) b).1).1 :=
  congrArg (fun c => (lbConsume c).1) (if_pos h)

/-- R96: any other packet is removed and delivered nowhere. -/
theorem drainOne_of_other (h : ¬ (20 ≤ b.head.length ∧ byteAt b.head 9 = 1)) : drainOne b = (lbConsume b).1 :=
  congrArg (fun c => (lbConsume c).1) (if_neg h)

/-- R80: what a removal leaves of the queue depends on the queue alone. -/
theorem lbConsume_queue {c : Netblk} (hc : b.queue.count ≠ 0) (h : c.queue = b.queue) :
    (lbConsume c).1.queue = (popPacket b).queue := by
  rw [lbConsume_of_packet (h ▸ hc), popPacket_queue, popPacket_queue, h]

/-- R96: the queue after an iteration: the head packet is removed, after the reply to it was written if it is a
request. -/
theorem drainOne_queue (hc : b.queue.count ≠ 0) :
    (drainOne b).queue = (popPacket b).queue ∨
    (drainCost b.head = 2 ∧ b.queue.count.val < 16 ∧
      ∃ p, drainCost p = 1 ∧ (drainOne b).queue = (popPacket (pushPacket p b)).queue) := by
  by_cases hicmp : 20 ≤ b.head.length ∧ byteAt b.head 9 = 1
  · rw [drainOne_of_icmp hicmp]
    rcases icmpHandle_queue b (be32 b.head 12) (b.head.drop 20) with h | ⟨hlen, htype, hfull, p, hp, h⟩
    · exact .inl (lbConsume_queue hc h)
    · have hroom : b.queue.count.val < 16 := by omega
      have hpush := pushPacket_count_ne_zero hroom p
      rw [List.length_drop] at hlen
      rw [byteAt_drop] at htype
      exact .inr ⟨if_pos ⟨by omega, hicmp.2, htype⟩, hroom, p, drainCost_of_reply hp, lbConsume_queue hpush h⟩
  · rw [drainOne_of_other hicmp]
    exact .inl (lbConsume_queue hc rfl)

theorem queueCost_congr {c : Netblk} (h : b.queue = c.queue) : queueCost b = queueCost c := by
  rw [queueCost, queueCost, queued_congr h]

theorem queueCost_of_packet (hc : b.queue.count ≠ 0) : queueCost b = drainCost b.head + queueCost (popPacket b) := by
  rw [queueCost, queued_of_packet hc, List.map_cons, List.sum_cons, queueCost]

/-- R98: an iteration keeps the ring and lowers the cost: a removal takes the head's cost away, and the reply put in a
request's place costs one less than the request. -/
theorem drainOne_lowers_queueCost (hring : OnRing b) (hc : b.queue.count ≠ 0) :
    OnRing (drainOne b) ∧ queueCost (drainOne b) < queueCost b := by
  have hhead := queueCost_of_packet hc
  rcases drainOne_queue hc with h | ⟨hrequest, hroom, p, hp, h⟩
  · refine ⟨(onRing_congr h).mpr (onRing_popPacket hring hc), ?_⟩
    rw [queueCost_congr h, hhead]
    exact Nat.lt_add_of_pos_left (drainCost_pos _)
  · have hqueued := queued_pushPacket hring hroom p
    have hpush := pushPacket_count_ne_zero hroom p
    have hrest : queued (popPacket (pushPacket p b)) = queued (popPacket b) ++ [p] := by
      rw [queued_of_packet hpush, queued_of_packet hc, List.cons_append] at hqueued
      exact (List.cons.inj hqueued).2
    refine ⟨(onRing_congr h).mpr (onRing_popPacket (onRing_pushPacket hring hroom p) hpush), ?_⟩
    have hcost : queueCost (popPacket (pushPacket p b)) = queueCost (popPacket b) + 1 := by
      simp [queueCost, hrest, hp]
    rw [queueCost_congr h]
    omega

end Iteration

/-- R96, R98: with enough fuel the loop is the iteration repeated until the queue is empty, at most as often as the queue
can account for. -/
theorem drainLoop_drains {fuel : Nat} {b : Netblk} (hring : OnRing b) (hfuel : queueCost b ≤ fuel) (n : Nat) :
    ∃ k ≤ queueCost b, drainLoop fuel n b = (drainOne^[k] b, n + k) ∧
      (∀ j < k, (drainOne^[j] b).queue.count ≠ 0) ∧ (drainOne^[k] b).queue.count = 0 := by
  induction fuel generalizing b n with
  | zero =>
    have hcount := count_le_queueCost b
    have hempty : b.queue.count = 0 := Fin.val_eq_zero_iff.mp (by omega)
    exact ⟨0, Nat.zero_le _, rfl, fun _ hj => absurd hj (Nat.not_lt_zero _), hempty⟩
  | succ fuel ih =>
    by_cases hc : b.queue.count = 0
    · exact ⟨0, Nat.zero_le _, drainLoop_empty hc _ n, fun _ hj => absurd hj (Nat.not_lt_zero _), hc⟩
    · obtain ⟨hring', hlower⟩ := drainOne_lowers_queueCost hring hc
      obtain ⟨k, hk, hloop, hbusy, hempty⟩ := ih hring' (by omega) (n + 1)
      refine ⟨k + 1, by omega, ?_, fun j hj => ?_, hempty⟩
      · rw [drainLoop_succ, if_neg hc, hloop, Nat.add_right_comm, Nat.add_assoc]
        rfl
      · cases j with
        | zero => exact hc
        | succ j => exact hbusy j (Nat.lt_of_succ_lt_succ hj)

/-- R96, R97, R98: the drain of a ring, as repeated iterations. -/
theorem ipProcess_drains {b : Netblk} (hring : OnRing b) :
    ∃ k ≤ 2 * b.queue.count.val, ipProcess b = ({ drainOne^[k] b with view := false }, k) ∧
      (∀ j < k, (drainOne^[j] b).queue.count ≠ 0) ∧ (drainOne^[k] b).queue.count = 0 := by
  have hcost := queueCost_le b
  have hfuel : queueCost b ≤ drainFuel b := by
    rw [drainFuel]
    omega
  obtain ⟨k, hk, hloop, hdrained⟩ := drainLoop_drains hring hfuel 0
  rw [Nat.zero_add] at hloop
  exact ⟨k, hk.trans hcost, by rw [ipProcess, hloop], hdrained⟩

theorem ipProcessBody_ok {b c : Netblk} {k : Nat} (hready : b.netReady = true) (h : ipProcess b = (c, k)) :
    ipProcessBody b = .ok ({ c with res0 := BitVec.ofNat 32 k }.setStatus .ok) := by
  rw [ipProcessBody, requireInit_bind_of_ready hready, h]
  rfl

/-- Settles O46: the drain starts from the block with CMD already written, which is on the ring by the invariant; at most 32
iterations fit into RES0. -/
theorem ipProcessDrains : Obligations.IpProcessDrains := by
  refine fun s hs => ⟨fun hready => ?notInit, fun hready hinv => ?drains⟩
  case notInit => exact exec_of_body_error rfl hs (requireInit_bind_of_notReady hready _)
  case drains =>
    obtain ⟨k, hk, hprocess, hbusy, hempty⟩ := ipProcess_drains (b := { s.toNetblk with cmd := 0x35 }) hinv.ring
    have hbody := ipProcessBody_ok (b := { s.toNetblk with cmd := 0x35 }) hready hprocess
    have hres : (BitVec.ofNat 32 k).toNat = k := by
      have hcount := s.queue.count.isLt
      rw [BitVec.toNat_ofNat]
      exact Nat.mod_eq_of_lt (by omega)
    exact ⟨k, BitVec.ofNat 32 k, _, rfl, hk, hres, hbusy, hempty, exec_of_body_ok rfl hs hbody⟩

end Sys2Proof.Machine

/-! ## The echo frame (R100, R101) -/

namespace Sys2Proof.Machine

open Sys2Proof

/-- R12: a field read back is the value written. -/
theorem word16_bytes (v : Half) : word16 (v.extractLsb' 8 8) (v.extractLsb' 0 8) = v := by
  have hv := v.isLt
  apply BitVec.eq_of_toNat_eq
  rw [word16_toNat, extractLsb'_toNat_eq_div_mod, extractLsb'_toNat_eq_div_mod]
  omega

/-- R59: identifier and sequence number are the two halves of the operand. -/
theorem word32_halves (w : Word) : word32 (idseqIdent w) (idseqSeq w) = w := by
  have hw := w.isLt
  apply BitVec.eq_of_toNat_eq
  rw [word32_toNat, idseqIdent, idseqSeq, extractLsb'_toNat_eq_div_mod, extractLsb'_toNat_eq_div_mod]
  omega

section EchoFrame

variable (type : Byte) (idseq : Word) (data : Bytes)

/-- R100: the fields in their order, the checksum field zero. -/
theorem echoZeroed_eq :
    echoZeroed type idseq data = [type, 0x00, 0x00, 0x00] ++ bytes16 (idseq.extractLsb' 16 16) ++
      bytes16 (idseq.extractLsb' 0 16) ++ data := rfl

/-- R101: the checksum goes between the code and the identifier. -/
theorem patch16_echoZeroed (c : Half) :
    patch16 (echoZeroed type idseq data) 2 c = [type, 0x00] ++ bytes16 c ++ bytes16 (idseq.extractLsb' 16 16) ++
      bytes16 (idseq.extractLsb' 0 16) ++ data := rfl

theorem echoZeroed_length : (echoZeroed type idseq data).length = 8 + data.length :=
  List.length_append

theorem buildEcho_length : (buildEcho type idseq data).length = 8 + data.length :=
  (patch16_length (by rw [echoZeroed_length]; omega) _).trans (echoZeroed_length type idseq data)

/-- R76, R101: the checksum field is even, and zero when the checksum is taken. -/
theorem checksum_buildEcho : checksum (buildEcho type idseq data) = 0 := by
  have hk : 2 + 1 < (echoZeroed type idseq data).length := by rw [echoZeroed_length]; omega
  exact (checksum_eq_zero_iff _).mpr (fold_wordSum_patch16_checksum (by decide) hk rfl rfl)

theorem byteAt_buildEcho_type : byteAt (buildEcho type idseq data) 0 = type := rfl

theorem be16_buildEcho_ident : be16 (buildEcho type idseq data) 4 = idseqIdent idseq := word16_bytes _

theorem be16_buildEcho_seq : be16 (buildEcho type idseq data) 6 = idseqSeq idseq := word16_bytes _

theorem buildEcho_drop_eight : (buildEcho type idseq data).drop 8 = data := rfl

/-- R101: after type, code and checksum a frame is the same for every type. -/
theorem buildEcho_drop_four :
    (buildEcho type idseq data).drop 4 = bytes16 (idseqIdent idseq) ++ bytes16 (idseqSeq idseq) ++ data := rfl

end EchoFrame

/-- Settles O48: the layout is the frame with its zero field patched, and the self-verification law gives its
checksum. -/
theorem echoFrame : Obligations.EchoFrame := by
  intro type idseq data _
  refine ⟨⟨checksum (echoZeroed type idseq data), ?_, ?_⟩, buildEcho_length type idseq data,
    checksum_buildEcho type idseq data⟩
  · rw [echoZeroed_eq]
  · exact patch16_echoZeroed type idseq data _

end Sys2Proof.Machine

/-! ## The ICMP commands on a block that is not halted (R104 to R109) -/

namespace Sys2Proof.Machine

open Sys2Proof

section Bodies

variable {b : Netblk} {type : Byte} {d : Bytes} {f : FaultCode}

theorem icmpBuildBody_error (h : memRead b b.arg1.toNat b.arg2.toNat = .error f) :
    icmpBuildBody type b = .error f := by
  rw [icmpBuildBody, h]
  rfl

theorem icmpBuildBody_badAddr (h : memRead b b.arg1.toNat b.arg2.toNat = .ok d)
    (ha : b.arg3.toNat < 0x1000 ∨ 0x2000 < b.arg3.toNat + (8 + b.arg2.toNat)) :
    icmpBuildBody type b = .error .badAddr := by
  have hspan : checkDst b.arg3.toNat (8 + b.arg2.toNat) = .error .badAddr := checkDst_badAddr (by omega) (by omega)
  rw [icmpBuildBody, h, hspan]
  rfl

/-- R105: with good spans the length decides. The frame has a name, so that no later comparison of states computes its
checksum. -/
theorem icmpBuildBody_of_checked (h : memRead b b.arg1.toNat b.arg2.toNat = .ok d) (hlo : 0x1000 ≤ b.arg3.toNat)
    (hhi : b.arg3.toNat + (8 + b.arg2.toNat) ≤ 0x2000) {frame : Bytes} (hframe : buildEcho type b.arg0 d = frame) :
    icmpBuildBody type b =
      if 8 + d.length > 1480 then .ok (b.setStatus .invalidPacket)
      else .ok ({ memWrite b.arg3.toNat frame b with
        res0 := BitVec.ofNat 32 frame.length, res1 := zext32 (be16 frame 2) }.setStatus .ok) := by
  rw [icmpBuildBody, h, (checkDst_ok_iff b.arg3.toNat (8 + b.arg2.toNat)).mpr (.inr ⟨hlo, hhi⟩), ← hframe]
  rfl

theorem icmpSendBody_error (hr : b.netReady = true) (h : memRead b b.arg2.toNat b.arg3.toNat = .error f) :
    icmpSendBody type b = .error f := by
  rw [icmpSendBody, requireInit_bind_of_ready hr, h]
  rfl

theorem icmpSendBody_ok (hr : b.netReady = true) (h : memRead b b.arg2.toNat b.arg3.toNat = .ok d) :
    icmpSendBody type b =
      .ok ((icmpSend type b.arg0 b.arg1 d b).1.setStatus (icmpSend type b.arg0 b.arg1 d b).2) := by
  rw [icmpSendBody, requireInit_bind_of_ready hr, h]
  rfl

theorem icmpHandleBody_error (hr : b.netReady = true) (h : memRead b b.arg1.toNat b.arg2.toNat = .error f) :
    icmpHandleBody b = .error f := by
  rw [icmpHandleBody, requireInit_bind_of_ready hr, h]
  rfl

/-- R109: what the handler answers goes to RES0 and RES1, and STATUS is OK whatever became of a reply. -/
theorem icmpHandleBody_ok (hr : b.netReady = true) (h : memRead b b.arg1.toNat b.arg2.toNat = .ok d)
    {r : Netblk × Action × Status} (hd : icmpHandle b.arg0 d b = r) :
    icmpHandleBody b = .ok ({ r.1 with res0 := actionCode r.2.1, res1 := r.2.2.code }.setStatus .ok) := by
  rw [icmpHandleBody, requireInit_bind_of_ready hr, h, ← hd]
  rfl

end Bodies

/-- R102: a command that sends an ICMP echo and reports the outcome ends as `State.icmpSends` says. -/
theorem icmpSends_eq (s : State) (w : Word) (type : Byte) (dst idseq : Word) (d : Bytes) :
    { s with
      toNetblk := (icmpSend type dst idseq d { s.toNetblk with cmd := w }).1.setStatus
        (icmpSend type dst idseq d { s.toNetblk with cmd := w }).2 } = s.icmpSends w type dst idseq d := by
  unfold State.icmpSends
  rcases icmpSend_cases type dst idseq d { s.toNetblk with cmd := w } with ⟨hlong, h⟩ | ⟨hfits, h⟩ <;> rw [h]
  · exact (if_pos hlong).symm
  · rw [if_neg (Nat.not_lt.mpr hfits), ← ipSends_eq]

/-- Settles O50: the body has no operand, needs no device and cannot fault. -/
theorem icmpInitAnnounces : Obligations.IcmpInitAnnounces := fun _ hs => exec_of_body_ok rfl hs rfl

/-- The two commands of R105 and R106 share a body and differ in the type. -/
theorem commandBody_icmpBuild {i : Instr} {w : Word} {type : Byte}
    (h : (i = .icmpBuildReq ∧ w = 0x41 ∧ type = 8) ∨ (i = .icmpBuildRep ∧ w = 0x42 ∧ type = 0)) :
    commandWord i = some w ∧ ∀ b, commandBody i b = icmpBuildBody type b := by
  rcases h with ⟨rfl, rfl, rfl⟩ | ⟨rfl, rfl, rfl⟩ <;> exact ⟨rfl, fun _ => rfl⟩

/-- Settles O51: the body's checks in order; the stored bytes are read back by the laws of BUF, and a frame of at most
1480 bytes is not cut by RES0's 32 bits. -/
theorem icmpBuildStores : Obligations.IcmpBuildStores := by
  intro i w type hi s hs
  obtain ⟨hw, hbody⟩ := commandBody_icmpBuild hi
  have hspan := memRead_cmd s.toNetblk w s.arg1.toNat s.arg2.toNat
  refine ⟨fun f hf => ?fault, fun d hd =>
    ⟨fun ha => ?address, fun hlo hhi => ⟨fun hlong => ?long, fun hfits => ?frame⟩⟩⟩
  case fault =>
    exact exec_of_body_error hw hs
      ((hbody _).trans (icmpBuildBody_error (b := { s.toNetblk with cmd := w }) (hspan.trans hf)))
  case address =>
    exact exec_of_body_error hw hs
      ((hbody _).trans (icmpBuildBody_badAddr (b := { s.toNetblk with cmd := w }) (hspan.trans hd) ha))
  all_goals
    have hdata := memRead_length hd
    obtain ⟨frame, hframe⟩ : ∃ frame, buildEcho type s.arg0 d = frame := ⟨_, rfl⟩
    have hchecked := (hbody _).trans
      (icmpBuildBody_of_checked (b := { s.toNetblk with cmd := w }) (hspan.trans hd) hlo hhi hframe)
  case long => exact exec_of_body_ok hw hs (hchecked.trans (if_pos (hdata.symm ▸ hlong)))
  case frame =>
    have hlen : frame.length = 8 + s.arg2.toNat := by rw [← hframe, buildEcho_length, hdata]
    have hres : (BitVec.ofNat 32 frame.length).toNat = 8 + s.arg2.toNat := by
      rw [hlen, BitVec.toNat_ofNat]
      exact Nat.mod_eq_of_lt (by omega)
    refine ⟨frame, s.buf.writeBytes s.arg3.toNat frame, BitVec.ofNat 32 frame.length, hframe.symm, hres,
      exec_of_body_ok hw hs (hchecked.trans (if_neg (by omega))), fun j hj => ?_, fun x hx => ?_⟩
    · rw [byteAt_of_lt (hlen.symm ▸ hj)]
      exact Memory.read_writeBytes_inside (hlen.symm ▸ hj)
    · exact Memory.read_writeBytes_outside (hlen.symm ▸ hx)

/-- The two commands of R107 and R108 share a body and differ in the type. -/
theorem commandBody_icmpSend {i : Instr} {w : Word} {type : Byte}
    (h : (i = .icmpSendReq ∧ w = 0x43 ∧ type = 8) ∨ (i = .icmpSendRep ∧ w = 0x44 ∧ type = 0)) :
    commandWord i = some w ∧ ∀ b, commandBody i b = icmpSendBody type b := by
  rcases h with ⟨rfl, rfl, rfl⟩ | ⟨rfl, rfl, rfl⟩ <;> exact ⟨rfl, fun _ => rfl⟩

/-- Settles O52: the body's checks in order, and `icmpSends_eq` gives what the send does. -/
theorem icmpSendSends : Obligations.IcmpSendSends := by
  intro i w type hi s hs
  obtain ⟨hw, hbody⟩ := commandBody_icmpSend hi
  have hspan := memRead_cmd s.toNetblk w s.arg2.toNat s.arg3.toNat
  refine ⟨fun hready => ?notInit, fun hready => ⟨fun f hf => ?fault, fun d hd => ?packet⟩⟩
  case notInit =>
    exact exec_of_body_error hw hs ((hbody _).trans (requireInit_bind_of_notReady hready _))
  case fault =>
    exact exec_of_body_error hw hs
      ((hbody _).trans (icmpSendBody_error (b := { s.toNetblk with cmd := w }) hready (hspan.trans hf)))
  case packet =>
    rw [← icmpSends_eq s w type s.arg0 s.arg1 d]
    exact exec_of_body_ok hw hs
      ((hbody _).trans (icmpSendBody_ok (b := { s.toNetblk with cmd := w }) hready (hspan.trans hd)))

/-! ### The inbound handler, by the length and the type of the frame (R103) -/

section Handler

variable {d : Bytes} (src : Word) (b : Netblk)

theorem icmpHandle_of_short (h : d.length < 8) : icmpHandle src d b = (b, .ignored, .ok) := if_pos h

/-- R103: a request is announced, then answered with its own identifier, sequence number and payload. -/
theorem icmpHandle_of_request (h : 8 ≤ d.length) (htype : byteAt d 0 = 8) :
    icmpHandle src d b =
      ((icmpSend 0 src (word32 (be16 d 4) (be16 d 6)) (d.drop 8)
          (emit (.echoRequestRx src (be16 d 4) (be16 d 6) (d.length - 8)) b)).1, .request,
        (icmpSend 0 src (word32 (be16 d 4) (be16 d 6)) (d.drop 8)
          (emit (.echoRequestRx src (be16 d 4) (be16 d 6) (d.length - 8)) b)).2) := by
  rw [← List.length_drop]
  exact (if_neg (Nat.not_lt.mpr h)).trans (if_pos htype)

theorem icmpHandle_of_reply (h : 8 ≤ d.length) (htype : byteAt d 0 = 0) :
    icmpHandle src d b = (emit (.echoReplyRx src (be16 d 4) (be16 d 6) (d.length - 8)) b, .reply, .ok) := by
  have hrequest : byteAt d 0 ≠ 8 := by rw [htype]; decide
  rw [← List.length_drop]
  exact (if_neg (Nat.not_lt.mpr h)).trans ((if_neg hrequest).trans (if_pos htype))

theorem icmpHandle_of_unknown (h : 8 ≤ d.length) (hrequest : byteAt d 0 ≠ 8) (hreply : byteAt d 0 ≠ 0) :
    icmpHandle src d b = (emit (.icmpUnknownRx src (byteAt d 0)) b, .unknown, .ok) :=
  (if_neg (Nat.not_lt.mpr h)).trans ((if_neg hrequest).trans (if_neg hreply))

end Handler

/-- Settles O53: the body's checks in order, then the handler's case; the reply's outcome is what a send command would
report from the state with the request's event. -/
theorem icmpHandleHandles : Obligations.IcmpHandleHandles := by
  intro s hs
  have hspan := memRead_cmd s.toNetblk 0x45 s.arg1.toNat s.arg2.toNat
  refine ⟨fun hready => ?notInit, fun hready => ⟨fun f hf => ?fault, fun d hd =>
    ⟨fun hshort => ?short, fun hlen htype => ?request, fun hlen htype => ?reply, fun hlen h8 h0 => ?unknown⟩⟩⟩
  case notInit => exact exec_of_body_error rfl hs (requireInit_bind_of_notReady hready _)
  case fault =>
    exact exec_of_body_error rfl hs
      (icmpHandleBody_error (b := { s.toNetblk with cmd := 0x45 }) hready (hspan.trans hf))
  all_goals
    have hbody {r} := icmpHandleBody_ok (b := { s.toNetblk with cmd := 0x45 }) (r := r) hready (hspan.trans hd)
  case short => exact exec_of_body_ok rfl hs (hbody (icmpHandle_of_short _ _ hshort))
  case request =>
    refine ⟨_, icmpSends_eq _ _ _ _ _ _, ?_⟩
    exact exec_of_body_ok rfl hs (hbody (icmpHandle_of_request _ _ hlen htype))
  case reply => exact exec_of_body_ok rfl hs (hbody (icmpHandle_of_reply _ _ hlen htype))
  case unknown => exact exec_of_body_ok rfl hs (hbody (icmpHandle_of_unknown _ _ hlen h8 h0))

end Sys2Proof.Machine

/-! ## The echo round trip (R111) -/

namespace Sys2Proof.Machine

open Sys2Proof

/-- R101, R102: the packet that an ICMP echo travels in. -/
def echoPacket (type : Byte) (dst idseq : Word) (data : Bytes) : Bytes :=
  buildHeader dst 1 (8 + data.length) ++ buildEcho type idseq data

/-- R111: what a drain emits for one echo request: the request's reception, the reply to it, their removals, and the
reply's reception. -/
def echoExchange (dst idseq : Word) (data : Bytes) : List Event :=
  [.echoRequestRx 0x7F000001 (idseqIdent idseq) (idseqSeq idseq) data.length,
   .enqueue (echoPacket 0 0x7F000001 idseq data), .consume (echoPacket 8 dst idseq data),
   .echoReplyRx 0x7F000001 (idseqIdent idseq) (idseqSeq idseq) data.length,
   .consume (echoPacket 0 0x7F000001 idseq data)]

section EchoPacket

variable (type : Byte) (dst idseq : Word) (data : Bytes)

theorem echoPacket_drop_twenty : (echoPacket type dst idseq data).drop 20 = buildEcho type idseq data :=
  List.drop_left' (buildHeader_length _ _ _)

theorem echoPacket_take_twenty : (echoPacket type dst idseq data).take 20 = buildHeader dst 1 (8 + data.length) :=
  List.take_left' (buildHeader_length _ _ _)

theorem echoPacket_length : (echoPacket type dst idseq data).length = 28 + data.length := by
  rw [echoPacket, List.length_append, buildHeader_length, buildEcho_length]
  omega

/-- R101: two echo packets with the same operand and data agree after the ICMP checksum. -/
theorem echoPacket_drop_twentyFour :
    (echoPacket type dst idseq data).drop 24 = bytes16 (idseqIdent idseq) ++ bytes16 (idseqSeq idseq) ++ data := by
  rw [← buildEcho_drop_four type, ← echoPacket_drop_twenty type dst, List.drop_drop]

theorem byteAt_echoPacket_proto : byteAt (echoPacket type dst idseq data) 9 = 1 := rfl

/-- R88: every packet sent names 127.0.0.1 as its source. -/
theorem be32_echoPacket_src : be32 (echoPacket type dst idseq data) 12 = 0x7F000001 := by
  have hbytes : be32 (echoPacket type dst idseq data) 12 = word32 (word16 127 0) (word16 0 1) := by
    rw [echoPacket, buildHeader, patch16_headerZeroed]
    rfl
  rw [hbytes]
  decide

end EchoPacket

section Iterations

variable {b : Netblk} {dst idseq : Word} {data : Bytes}

/-- R102: an echo that fits, to a loopback address, is enqueued when there is room. -/
theorem icmpSend_of_room (type : Byte) (hdst : isLoopback dst = true) (hlen : data.length ≤ 1472)
    (hroom : b.queue.count.val < 16) :
    icmpSend type dst idseq data b = (pushPacket (echoPacket type dst idseq data) b, .ok) := by
  have hframe := buildEcho_length type idseq data
  have hpacket := echoPacket_length type dst idseq data
  have hicmp : ¬ 8 + data.length > 1480 := by omega
  have hroute : ¬ isLoopback dst = false := by rw [hdst]; decide
  have hip : ¬ 20 + (buildEcho type idseq data).length > 1500 := by omega
  rw [icmpSend, if_neg hicmp, ipSend, if_neg hroute, if_neg hip, hframe, ← echoPacket]
  exact lbEnqueue_of_room (by omega) (by omega)

/-- R96: an echo packet at the head is handled with 127.0.0.1 as its source. -/
theorem drainOne_of_echoPacket {type : Byte} (hhead : b.head = echoPacket type dst idseq data) :
    drainOne b = (lbConsume (icmpHandle 0x7F000001 (buildEcho type idseq data) b).1).1 := by
  have hlen := echoPacket_length type dst idseq data
  rw [drainOne_of_icmp (hhead ▸ ⟨by omega, byteAt_echoPacket_proto type dst idseq data⟩), hhead,
    be32_echoPacket_src, echoPacket_drop_twenty]

/-- R103: the handler answers an echo request with the reply to 127.0.0.1 when there is room. -/
theorem icmpHandle_buildEcho_request (hlen : data.length ≤ 1472) (hroom : b.queue.count.val < 16) :
    (icmpHandle 0x7F000001 (buildEcho 8 idseq data) b).1 =
      pushPacket (echoPacket 0 0x7F000001 idseq data)
        (emit (.echoRequestRx 0x7F000001 (idseqIdent idseq) (idseqSeq idseq) data.length) b) := by
  have hframe := buildEcho_length 8 idseq data
  have hsend := icmpSend_of_room (dst := 0x7F000001) (idseq := idseq)
    (b := emit (.echoRequestRx 0x7F000001 (idseqIdent idseq) (idseqSeq idseq) data.length) b) 0 rfl hlen hroom
  rw [icmpHandle_of_request _ _ (by omega) (byteAt_buildEcho_type 8 idseq data), be16_buildEcho_ident,
    be16_buildEcho_seq, word32_halves, buildEcho_drop_eight, hframe, Nat.add_sub_cancel_left, hsend]

/-- R110: the handler announces an echo reply and does nothing else. -/
theorem icmpHandle_buildEcho_reply :
    (icmpHandle 0x7F000001 (buildEcho 0 idseq data) b).1 =
      emit (.echoReplyRx 0x7F000001 (idseqIdent idseq) (idseqSeq idseq) data.length) b := by
  have hframe := buildEcho_length 0 idseq data
  rw [icmpHandle_of_reply _ _ (by omega) (byteAt_buildEcho_type 0 idseq data), be16_buildEcho_ident,
    be16_buildEcho_seq, hframe, Nat.add_sub_cancel_left]

theorem count_ne_zero_of_queued {p : Bytes} {ps : List Bytes} (hq : queued b = p :: ps) : b.queue.count ≠ 0 := by
  rw [← Fin.val_ne_zero_iff, ← queued_length, hq]
  exact Nat.succ_ne_zero _

theorem head_of_queued {p : Bytes} {ps : List Bytes} (hq : queued b = p :: ps) : b.head = p :=
  (List.cons.inj ((queued_of_packet (count_ne_zero_of_queued hq)).symm.trans hq)).1

/-- R80: the oldest packet is the head, and its removal leaves the others and says so in the trace. -/
theorem lbConsume_of_queued {p : Bytes} {ps : List Bytes} (hq : queued b = p :: ps) :
    queued (lbConsume b).1 = ps ∧ (lbConsume b).1.events = b.events ++ [.consume p] := by
  have hc := count_ne_zero_of_queued hq
  have hpop := queued_of_packet (b := { b with view := false }) hc
  obtain ⟨hhead, hrest⟩ := List.cons.inj (hpop.symm.trans hq)
  rw [lbConsume_of_packet hc]
  exact ⟨hrest, by rw [popPacket_events, hhead]⟩

/-- R96, R103: the iteration that meets an echo request enqueues the reply to it and then removes the request. The reply
and the event have names, so that no comparison of states looks inside them. -/
theorem drainOne_of_echoRequest (hring : OnRing b) (hroom : b.queue.count.val < 16) {ps : List Bytes}
    (hq : queued b = echoPacket 8 dst idseq data :: ps) (hlen : data.length ≤ 1472) :
    queued (drainOne b) = ps ++ [echoPacket 0 0x7F000001 idseq data] ∧
    (drainOne b).events = b.events ++
      [.echoRequestRx 0x7F000001 (idseqIdent idseq) (idseqSeq idseq) data.length,
       .enqueue (echoPacket 0 0x7F000001 idseq data), .consume (echoPacket 8 dst idseq data)] := by
  rw [drainOne_of_echoPacket (head_of_queued hq), icmpHandle_buildEcho_request hlen hroom]
  generalize echoPacket 0 0x7F000001 idseq data = reply
  generalize Event.echoRequestRx 0x7F000001 (idseqIdent idseq) (idseqSeq idseq) data.length = received
  have hpush : queued (pushPacket reply (emit received b)) = queued b ++ [reply] := queued_pushPacket hring hroom reply
  rw [hq, List.cons_append] at hpush
  obtain ⟨hqueued, hevents⟩ := lbConsume_of_queued hpush
  exact ⟨hqueued, hevents.trans (by simp)⟩

/-- R96, R110: the iteration that meets an echo reply removes it and sends nothing. -/
theorem drainOne_of_echoReply {ps : List Bytes} (hq : queued b = echoPacket 0 dst idseq data :: ps) :
    queued (drainOne b) = ps ∧
    (drainOne b).events = b.events ++
      [.echoReplyRx 0x7F000001 (idseqIdent idseq) (idseqSeq idseq) data.length,
       .consume (echoPacket 0 dst idseq data)] := by
  rw [drainOne_of_echoPacket (head_of_queued hq), icmpHandle_buildEcho_reply]
  generalize Event.echoReplyRx 0x7F000001 (idseqIdent idseq) (idseqSeq idseq) data.length = received
  obtain ⟨hqueued, hevents⟩ := lbConsume_of_queued (b := emit received b) hq
  exact ⟨hqueued, hevents.trans (by simp)⟩

/-- R98, R111: a queue that holds one echo request is drained in two iterations, the request's and the reply's: it
is not empty before either, and R98 allows no third. -/
theorem ipProcess_of_echoRequest (hring : OnRing b) (hq : queued b = [echoPacket 8 dst idseq data])
    (hlen : data.length ≤ 1472) :
    ∃ c, ipProcess b = (c, 2) ∧ c.queue.count = 0 ∧ c.events = b.events ++ echoExchange dst idseq data := by
  have hcount : b.queue.count.val = 1 := by rw [← queued_length, hq, List.length_singleton]
  obtain ⟨hreply, hrequestEvents⟩ := drainOne_of_echoRequest hring (by omega) hq hlen
  rw [List.nil_append] at hreply
  obtain ⟨-, hreplyEvents⟩ := drainOne_of_echoReply hreply
  obtain ⟨k, hk, hprocess, -, hempty⟩ := ipProcess_drains hring
  rw [hcount] at hk
  have htwo : k = 2 := by
    interval_cases k
    · exact absurd hempty (count_ne_zero_of_queued hq)
    · exact absurd hempty (count_ne_zero_of_queued hreply)
    · rfl
  subst htwo
  have hevents : (drainOne^[2] b).events = b.events ++ echoExchange dst idseq data := by
    rw [Function.iterate_succ_apply', Function.iterate_one, hreplyEvents, hrequestEvents, List.append_assoc]
    rfl
  generalize drainOne^[2] b = drained at hprocess hempty hevents
  exact ⟨_, hprocess, hempty, hevents⟩

end Iterations

/-- R107: an echo sent by ICMP_SEND_REQ to a loopback address, when there is room. -/
theorem exec_icmpSendReq_of_room {s : State} {d : Bytes} (hs : s.fault = 0) (hready : s.netReady = true)
    (hd : memRead s.toNetblk s.arg2.toNat s.arg3.toNat = .ok d) (hdst : isLoopback s.arg0 = true)
    (hlen : d.length ≤ 1472) (hroom : s.queue.count.val < 16) :
    exec .icmpSendReq s = .next { s with
      toNetblk := (pushPacket (echoPacket 8 s.arg0 s.arg1 d) { s.toNetblk with cmd := 0x43 }).setStatus .ok } := by
  have hsend := icmpSend_of_room (b := { s.toNetblk with cmd := 0x43 }) (idseq := s.arg1) 8 hdst hlen hroom
  have hbody := icmpSendBody_ok (b := { s.toNetblk with cmd := 0x43 }) (type := 8) hready
    ((memRead_cmd s.toNetblk 0x43 _ _).trans hd)
  rw [hsend] at hbody
  exact exec_of_body_ok rfl hs hbody

/-- R97, R111: IP_PROCESS on a block whose queue holds one echo request. -/
theorem exec_ipProcess_of_echoRequest {s : State} {dst idseq : Word} {data : Bytes} (hs : s.fault = 0)
    (hready : s.netReady = true) (hring : OnRing s.toNetblk) (hq : queued s.toNetblk = [echoPacket 8 dst idseq data])
    (hlen : data.length ≤ 1472) :
    ∃ u, exec .ipProcess s = .next u ∧ u.status = 0x00 ∧ u.events = s.events ++ echoExchange dst idseq data ∧
      u.res0 = 2 ∧ u.queue.count = 0 := by
  obtain ⟨c, hdrain, hempty, hevents⟩ :=
    ipProcess_of_echoRequest (b := { s.toNetblk with cmd := 0x35 }) hring hq hlen
  have hbody := ipProcessBody_ok (b := { s.toNetblk with cmd := 0x35 }) hready hdrain
  exact ⟨_, exec_of_body_ok rfl hs hbody, rfl, hevents, rfl, hempty⟩

/-- Settles O54: the request is alone in the queue, `exec_ipProcess_of_echoRequest` gives the drain, and the two packets
agree after the ICMP checksum. -/
theorem echoRoundTrip : Obligations.EchoRoundTrip := by
  intro s d hinv hs hready hempty hdst hd hlen
  have hroom : s.queue.count.val < 16 := by rw [hempty]; decide
  have hnone : queued s.toNetblk = [] := List.eq_nil_of_length_eq_zero (by rw [queued_length, hempty]; rfl)
  have hsent := exec_icmpSendReq_of_room hs hready hd (beq_iff_eq.mpr hdst) hlen hroom
  have hring : OnRing (pushPacket (echoPacket 8 s.arg0 s.arg1 d) s.toNetblk) := onRing_pushPacket hinv.ring hroom _
  have hqueued := queued_pushPacket hinv.ring hroom (echoPacket 8 s.arg0 s.arg1 d)
  rw [hnone, List.nil_append] at hqueued
  obtain ⟨u, hdrain, hok, hevents, hres, hdrained⟩ := exec_ipProcess_of_echoRequest (s := { s with
    toNetblk := (pushPacket (echoPacket 8 s.arg0 s.arg1 d) { s.toNetblk with cmd := 0x43 }).setStatus .ok })
    hs hready hring hqueued hlen
  refine ⟨_, u, echoPacket 8 s.arg0 s.arg1 d, echoPacket 0 0x7F000001 s.arg1 d, hsent, rfl, hdrain, hok, rfl, rfl,
    ?events, hres, hdrained, ?same, ?icmpChecksum, ?headerChecksum⟩
  case events =>
    rw [hevents]
    exact List.append_assoc s.events [_] _
  case same => rw [echoPacket_drop_twentyFour, echoPacket_drop_twentyFour]
  case icmpChecksum => rw [echoPacket_drop_twenty, checksum_buildEcho]
  case headerChecksum => rw [echoPacket_take_twenty, checksum_buildHeader]

end Sys2Proof.Machine

/-! ## Faults in commands and the halted block (R115 to R118) -/

namespace Sys2Proof.Machine

open Sys2Proof

/-! ### Every command write, legal or not, is the command sequence around one body -/

/-- R22: the instruction writes `w` to CMD, as a command or as a WR32. -/
def WritesCmd (i : Instr) (w : Word) : Prop := commandWord i = some w ∨ i = .wr32 0x00 w

/-- R62, R63: a command write runs the command sequence, and a body that ends leaves CMD, the operands and FAULT alone. -/
theorem exec_of_writesCmd {i : Instr} {w : Word} (h : WritesCmd i w) :
    ∃ body : Netblk → Except FaultCode Netblk,
      (∀ b c, body b = .ok c → SameControl b c) ∧ ∀ s, exec i s = runCommand w body s := by
  rcases h with hw | rfl
  · exact ⟨commandBody i, fun _ _ => commandBody_sameControl, exec_of_commandWord hw⟩
  · cases hd : decodeCommand w with
    | none => exact ⟨fun _ => .error .illegal, fun _ _ hb => (nomatch hb), exec_wr32_cmd_illegal hd⟩
    | some j =>
      have hw := commandWord_of_decodeCommand hd
      exact ⟨commandBody j, fun _ _ => commandBody_sameControl,
        fun s => (exec_wr32_cmd_legal hw s).trans (exec_of_commandWord hw s)⟩

/-- R63, R115, R117: the three ends of a command write, by what they leave of the state and of FAULT. -/
theorem exec_writesCmd_cases {i : Instr} {w : Word} (h : WritesCmd i w) (s : State) :
    (s.fault ≠ 0 ∧ exec i s = .next (s.reportsHalted w)) ∨
    (s.fault = 0 ∧ ∃ f, exec i s = .next (s.faulted w f)) ∨
    (s.fault = 0 ∧ ∃ t, exec i s = .next t ∧ t.fault = 0) := by
  obtain ⟨body, hbody, hexec⟩ := exec_of_writesCmd h
  rw [hexec, runCommand_eq]
  rcases commandSequence_cases w body s.toNetblk with ⟨hs, heq⟩ | ⟨hs, f, -, heq⟩ | ⟨hs, c, hc, heq⟩ <;> rw [heq]
  · exact .inl ⟨hs, rfl⟩
  · exact .inr (.inl ⟨hs, f, rfl⟩)
  · exact .inr (.inr ⟨hs, _, rfl, (hbody _ _ hc).fault.trans hs⟩)

/-- R117: a halted block reports a command write and does nothing else. -/
theorem exec_of_halted {i : Instr} {w : Word} (h : WritesCmd i w) {s : State} (hs : s.fault ≠ 0) :
    exec i s = .next (s.reportsHalted w) := by
  rcases exec_writesCmd_cases h s with ⟨-, heq⟩ | ⟨hz, -⟩ | ⟨hz, -⟩
  · exact heq
  · exact absurd hz hs
  · exact absurd hz hs

/-- Settles O57: of the three ends of a command write, only the faulting one starts with FAULT 0 and ends with another. -/
theorem commandFaultIsPrecise : Obligations.CommandFaultIsPrecise := by
  intro i w s t hw hs ht hfault
  rcases exec_writesCmd_cases hw s with ⟨hne, -⟩ | ⟨-, f, heq⟩ | ⟨-, u, heq, hzero⟩
  · exact absurd hs hne
  · cases ht.symm.trans heq
    exact ⟨f, rfl⟩
  · cases ht.symm.trans heq
    exact absurd hzero hfault

/-! ### The other transactions act alike whatever FAULT holds -/

/-- The block with the faults `x` besides its own. -/
def Netblk.orFaults (x : Word) (b : Netblk) : Netblk := { b with fault := x ||| b.fault }

/-- The state with the faults `x` besides its own. -/
def State.orFaults (x : Word) (s : State) : State := { s with fault := x ||| s.fault }

section OrFaults

variable (x : Word) (b : Netblk)

/-- R116: the bit of a host fault is ORed in after those that stand already. -/
theorem takeHostFault_orFaults (f : FaultCode) :
    takeHostFault f (b.orFaults x) = (takeHostFault f b).orFaults x := by
  simp only [takeHostFault, Netblk.orFault, Netblk.orFaults, BitVec.or_assoc]

theorem busFaultRead_orFaults :
    busFaultRead (b.orFaults x) = ((busFaultRead b).1.orFaults x, (busFaultRead b).2) :=
  congrArg (·, 0) (takeHostFault_orFaults x b .bus)

theorem readByte_orFaults (a : Nat) :
    readByte (b.orFaults x) a = ((readByte b a).1.orFaults x, (readByte b a).2) := by
  unfold readByte
  cases regionOf a with
  | buf => rfl
  | reg | unmapped => exact busFaultRead_orFaults x b
  | rxwin =>
    have hview : (b.orFaults x).view = b.view := rfl
    have hhead : (b.orFaults x).head = b.head := rfl
    simp only [hview, hhead]
    split
    · exact congrArg (·, 0) (takeHostFault_orFaults x b .staleView)
    · split
      · exact busFaultRead_orFaults x b
      · rfl

theorem writeByte_orFaults (a : Nat) (v : Byte) :
    writeByte a v (b.orFaults x) = (writeByte a v b).orFaults x := by
  unfold writeByte
  cases regionOf a with
  | buf => rfl
  | reg | rxwin | unmapped => exact takeHostFault_orFaults x b .bus

/-- R38: every register but FAULT reads the same whatever FAULT holds. -/
theorem readWord_orFaults {a : Addr} (ha : regAt a ≠ some .fault) :
    readWord (b.orFaults x) a = ((readWord b a).1.orFaults x, (readWord b a).2) := by
  unfold readWord
  cases hr : regAt a with
  | none => exact busFaultRead_orFaults x b
  | some r =>
    cases r with
    | fault => exact absurd hr ha
    | _ => rfl

theorem writeWord_orFaults (r : Option Reg) (v : Word) :
    writeWord r v (b.orFaults x) = (writeWord r v b).orFaults x := by
  rcases r with _ | r
  · exact takeHostFault_orFaults x b .bus
  · cases r with
    | arg0 | arg1 | arg2 | arg3 => rfl
    | _ => exact takeHostFault_orFaults x b .bus

end OrFaults

/-- FAULT is the only register at address 0x2C (R21). -/
theorem regAt_eq_fault_iff (a : Addr) : regAt a = some .fault ↔ a = 0x2C := by
  constructor
  · intro h
    unfold regAt at h
    split at h <;> cases h
    next h0 => exact BitVec.eq_of_toNat_eq h0
  · rintro rfl
    rfl

/-- R26: a read of FAULT returns it. -/
theorem exec_rd32_fault (s : State) : exec (.rd32 0x2C) s = .next (s.returned s.fault) :=
  exec_rd32_of_regAt (r := .fault) rfl s

/-- R117: a transaction that neither writes CMD nor reads FAULT does the same with more bits in FAULT, and keeps them. -/
theorem exec_orFaults {i : Instr} (hcmd : ∀ w, ¬ WritesCmd i w) (hfault : i ≠ .rd32 0x2C) (x : Word) (s : State) :
    ∃ t, exec i s = .next t ∧ exec i (s.orFaults x) = .next (t.orFaults x) := by
  cases i with
  | rd8 a => exact ⟨_, rfl, congrArg (finishRead · s) (readByte_orFaults x s.toNetblk a.toNat)⟩
  | wr8 a v => exact ⟨_, rfl, congrArg (finishWrite · s) (writeByte_orFaults x s.toNetblk a.toNat v)⟩
  | rd32 a =>
    have ha : regAt a ≠ some .fault := fun h => hfault (congrArg _ ((regAt_eq_fault_iff a).mp h))
    exact ⟨_, rfl, congrArg (finishRead · s) (readWord_orFaults x s.toNetblk ha)⟩
  | wr32 a v =>
    have ha : a ≠ 0 := fun h => hcmd v (.inr (h ▸ rfl))
    rw [exec_wr32_of_ne_cmd ha, exec_wr32_of_ne_cmd ha]
    exact ⟨_, rfl, congrArg (finishWrite · s) (writeWord_orFaults x s.toNetblk (regAt a) v)⟩
  | _ => exact absurd (.inl rfl) (hcmd _)

/-- A state is the one with FAULT clear, with its faults ORed in. -/
theorem orFaults_clear (s : State) : ({ s with fault := 0 } : State).orFaults s.fault = s := by
  simp only [State.orFaults, BitVec.ofNat_eq_ofNat, BitVec.or_zero]

/-! ### FAULT only gains bits (R26, R118) -/

/-- R26: an instruction only adds bits to FAULT. -/
theorem exec_fault_grows {i : Instr} {s t : State} (ht : exec i s = .next t) : ∃ y, t.fault = s.fault ||| y := by
  by_cases hcmd : ∃ w, WritesCmd i w
  · obtain ⟨w, hw⟩ := hcmd
    rcases exec_writesCmd_cases hw s with ⟨-, heq⟩ | ⟨-, f, heq⟩ | ⟨hs, u, heq, hzero⟩ <;> cases ht.symm.trans heq
    · exact ⟨0, BitVec.or_zero.symm⟩
    · exact ⟨f.mask, rfl⟩
    · exact ⟨0, by rw [hs, hzero]; rfl⟩
  · by_cases hfault : i = .rd32 0x2C
    · subst hfault
      cases ht.symm.trans (exec_rd32_fault s)
      exact ⟨0, BitVec.or_zero.symm⟩
    · obtain ⟨u, -, heq⟩ := exec_orFaults (not_exists.mp hcmd) hfault s.fault { s with fault := 0 }
      rw [orFaults_clear] at heq
      cases ht.symm.trans heq
      exact ⟨u.fault, rfl⟩

/-- R116: a record that is no host transaction adds F_BUS. -/
theorem rejectRecord_fault (h : Record) (s : State) : (rejectRecord h s).fault = s.fault ||| FaultCode.bus.mask := by
  unfold rejectRecord
  split <;> rfl

/-- R26, R118: a step other than the reset input only adds bits to FAULT. -/
theorem step_fault_grows {s t : State} (hreset : ∀ rest, s.pending ≠ .reset :: rest) (ht : step s = .next t) :
    ∃ y, t.fault = s.fault ||| y := by
  unfold step at ht
  cases hp : s.pending with
  | nil =>
    rw [nextInput_nil hp] at ht
    cases ht
    exact ⟨0, BitVec.or_zero.symm⟩
  | cons input rest =>
    rw [nextInput_cons hp] at ht
    cases input with
    | reset => exact absurd hp (hreset rest)
    | transaction h =>
      cases hd : decode h with
      | ok i =>
        simp only [hd] at ht
        exact exec_fault_grows (s := { s with pending := rest }) ht
      | error e =>
        simp only [hd] at ht
        cases ht
        exact ⟨FaultCode.bus.mask, rejectRecord_fault h { s with pending := rest }⟩

/-- Settles O58: a command write finds the block halted, every other transaction ignores FAULT, and a step that only adds
bits to FAULT leaves it other than 0. -/
theorem haltedBlock : Obligations.HaltedBlock := by
  intro s hs
  refine ⟨fun i w hw => exec_of_halted (.inl hw) hs, fun w => exec_of_halted (.inr rfl) hs, ?transactions,
    exec_rd32_fault s, ?halted⟩
  case transactions =>
    intro i hword hcmd hfault
    have hnot : ∀ w, ¬ WritesCmd i w := fun w hw => hw.elim (fun h => nomatch hword.symm.trans h) (hcmd w)
    have hexec := exec_orFaults hnot hfault s.fault { s with fault := 0 }
    rwa [orFaults_clear] at hexec
  case halted =>
    intro t hreset ht hzero
    obtain ⟨y, hy⟩ := step_fault_grows hreset ht
    exact hs (BitVec.or_eq_zero_iff.mp (hy.symm.trans hzero)).1

end Sys2Proof.Machine

/-! ## The step, by the host's next input (R7, R127 to R129) -/

namespace Sys2Proof.Machine

open Sys2Proof

section Step

variable {s : State} {rest : List PortInput}

theorem step_of_idle (h : s.pending = []) : step s = .next s := by
  rw [step, nextInput_nil h]

theorem step_of_reset (h : s.pending = .reset :: rest) :
    step s = .next (resetInput { s with pending := rest }) := by
  rw [step, nextInput_cons h]

theorem step_of_decode_ok {h : Record} {i : Instr} (hp : s.pending = .transaction h :: rest) (hd : decode h = .ok i) :
    step s = exec i { s with pending := rest } := by
  rw [step, nextInput_cons hp]
  simp only [hd]

theorem step_of_decode_error {h : Record} {e : DecodeError} (hp : s.pending = .transaction h :: rest)
    (hd : decode h = .error e) : step s = .next (rejectRecord h { s with pending := rest }) := by
  rw [step, nextInput_cons hp]
  simp only [hd]

end Step

/-- R7: what a step is: idle, the reset input, an instruction, or the refusal of a record. -/
theorem step_cases (s : State) :
    step s = .next s ∨
    (∃ rest, s.pending = .reset :: rest ∧ step s = .next (resetInput { s with pending := rest })) ∨
    (∃ rest i, step s = exec i { s with pending := rest }) ∨
    (∃ rest h, step s = .next (rejectRecord h { s with pending := rest })) := by
  cases hp : s.pending with
  | nil => exact .inl (step_of_idle hp)
  | cons input rest =>
    cases input with
    | reset => exact .inr (.inl ⟨rest, rfl, step_of_reset hp⟩)
    | transaction h =>
      cases hd : decode h with
      | ok i => exact .inr (.inr (.inl ⟨rest, i, step_of_decode_ok hp hd⟩))
      | error e => exact .inr (.inr (.inr ⟨rest, h, step_of_decode_error hp hd⟩))

/-- R113: every instruction answers, whatever state it meets. -/
theorem exec_answers (i : Instr) (s : State) : ∃ t, exec i s = .next t := by
  cases i with
  | wr32 a v =>
    by_cases ha : a = 0
    · subst ha
      obtain ⟨t, ht, -⟩ := exec_wr32_cmd_stores v s
      exact ⟨t, ht⟩
    · exact ⟨_, exec_wr32_of_ne_cmd ha v s⟩
  | _ => exact ⟨_, rfl⟩

/-- Settles O12: each of the four kinds of step answers, and so does every instruction. -/
theorem everyStepAnswersNext : Obligations.EveryStepAnswersNext := by
  refine ⟨fun s => ?_, exec_answers⟩
  rcases step_cases s with h | ⟨rest, -, h⟩ | ⟨rest, i, h⟩ | ⟨rest, r, h⟩ <;> rw [h]
  · exact ⟨_, rfl⟩
  · exact ⟨_, rfl⟩
  · exact exec_answers i _
  · exact ⟨_, rfl⟩

/-- Settles O6: the record is decoded, and what it decodes to runs on the state without it. -/
theorem stepRunsDecodedInstruction : Obligations.StepRunsDecodedInstruction :=
  fun _ _ _ _ hp hd _ => step_of_decode_ok hp hd

/-- Settles O7: the two steps that decode nothing. -/
theorem idleAndResetInput : Obligations.IdleAndResetInput :=
  ⟨fun _ => step_of_idle, fun _ _ => step_of_reset⟩

/-- Settles O59: FAULT after a step is FAULT before it with bits ORed in (`step_fault_grows`). -/
theorem faultIsSticky : Obligations.FaultIsSticky := by
  intro s t hreset ht
  obtain ⟨y, hy⟩ := step_fault_grows hreset ht
  rw [hy]
  ext k hk
  rw [BitVec.getElem_and, BitVec.getElem_or, Bool.and_comm]
  cases s.fault[k] <;> rfl

/-- Settles O55: the masks are literals. -/
theorem faultBits : Obligations.FaultBits := ⟨rfl, rfl, rfl, rfl, rfl, rfl, rfl⟩

end Sys2Proof.Machine

/-! ## What an instruction can do to the block, as a run of acts (R18, R63) -/

namespace Sys2Proof.Machine

open Sys2Proof

/-- R33: the events that neither write nor remove a packet. -/
def Event.isNotice : Event → Bool
  | .enqueue _ | .consume _ => false
  | _ => true

/-- Everything the rules let one part of an instruction do to the block, each with the test the rules make before it.
An invariant that every act keeps is kept by every instruction (`exec_acts`). -/
inductive Act : Netblk → Netblk → Prop
  /-- R15: a notice goes to the trace. -/
  | notice (b : Netblk) (e : Event) : e.isNotice = true → Act b (emit e b)
  /-- R79: a packet is enqueued, by a command that needs the device. -/
  | push (b : Netblk) (p : Bytes) :
      b.netReady = true → b.queue.count.val < 16 → p.length ≤ 1514 → Act b (pushPacket p b)
  /-- R80: a view ends. -/
  | endView (b : Netblk) : Act b { b with view := false }
  /-- R80: the head packet is removed, after the view of it has ended. -/
  | pop (b : Netblk) : b.view = false → b.queue.count ≠ 0 → Act b (popPacket b)
  /-- R83: the head packet is viewed. -/
  | beginView (b : Netblk) : b.queue.count ≠ 0 → Act b { b with view := true }
  /-- R91: the device comes up. -/
  | bringUp (b : Netblk) : b.netReady = false →
      Act b { b with netReady := true, queue := { b.queue with rd := 0, wr := 0, count := 0 }, view := false }
  /-- R72, R75. -/
  | clearSum (b : Netblk) : Act b { b with csum := Accum.clear }
  /-- R69. -/
  | feed (b : Netblk) (d : Bytes) : Act b { b with csum := csumFeed b.csum d }
  /-- R39, R48: bytes are stored in a span of BUF. -/
  | store (b : Netblk) (a : Nat) (d : Bytes) : 0x1000 ≤ a → a + d.length ≤ 0x2000 → Act b (memWrite a d b)
  /-- R23, R25: a command ends with its results and an outcome other than FAULTED. -/
  | answer (b : Netblk) (r0 r1 r2 r3 r4 : Word) (x : Status) : x ≠ .faulted →
      Act b ({ b with res0 := r0, res1 := r1, res2 := r2, res3 := r3, res4 := r4 }.setStatus x)
  /-- R22. -/
  | writeCmd (b : Netblk) (w : Word) : Act b { b with cmd := w }
  /-- R24. -/
  | writeArgs (b : Netblk) (a0 a1 a2 a3 : Word) : Act b { b with arg0 := a0, arg1 := a1, arg2 := a2, arg3 := a3 }
  /-- R115. -/
  | commandFault (b : Netblk) (f : FaultCode) : Act b (takeCommandFault f b)
  /-- R116. -/
  | hostFault (b : Netblk) (f : FaultCode) : Act b (takeHostFault f b)
  /-- R117: a halted block only reports FAULTED. -/
  | reportHalted (b : Netblk) : b.fault ≠ 0 → Act b (b.setStatus .faulted)

/-- Acts one after another. -/
abbrev Acts : Netblk → Netblk → Prop := Relation.ReflTransGen Act

theorem Act.acts {b c : Netblk} (h : Act b c) : Acts b c := .single h

/-- A command that only reports its outcome. -/
theorem Acts.setStatus (b : Netblk) {x : Status} (hx : x ≠ .faulted) : Acts b (b.setStatus x) :=
  (Act.answer b b.res0 b.res1 b.res2 b.res3 b.res4 x hx).acts

/-! ### The operations of the queue and its users -/

namespace Acts

theorem lbEnqueue (p : Bytes) {b : Netblk} (h : b.netReady = true) : Acts b (lbEnqueue p b).1 := by
  rcases lbEnqueue_cases p b with ⟨-, heq⟩ | ⟨-, -, heq⟩ | ⟨hroom, hlen, heq⟩ <;> rw [heq]
  · exact (Act.push b p h (by omega) hlen).acts

theorem lbConsume (b : Netblk) : Acts b (lbConsume b).1 := by
  rcases lbConsume_cases b with ⟨-, heq⟩ | ⟨hc, heq⟩ <;> rw [heq]
  · exact (Act.endView b).acts
  · exact (Act.endView b).acts.tail (.pop _ rfl hc)

theorem ipSend (dst : Word) (proto : Byte) (payload : Bytes) {b : Netblk} (h : b.netReady = true) :
    Acts b (ipSend dst proto payload b).1 := by
  rcases ipSend_cases dst proto payload b with ⟨-, heq⟩ | ⟨-, -, heq⟩ | ⟨-, -, heq⟩ <;> rw [heq]
  · exact lbEnqueue _ h

theorem icmpSend (type : Byte) (dst idseq : Word) (data : Bytes) {b : Netblk} (h : b.netReady = true) :
    Acts b (icmpSend type dst idseq data b).1 := by
  rcases icmpSend_cases type dst idseq data b with ⟨-, heq⟩ | ⟨-, heq⟩ <;> rw [heq]
  · exact ipSend _ _ _ h

theorem icmpHandle (src : Word) (d : Bytes) {b : Netblk} (h : b.netReady = true) :
    Acts b (icmpHandle src d b).1 := by
  rcases icmpHandle_cases src d b with ⟨-, heq⟩ | ⟨-, -, heq⟩ | ⟨-, -, heq⟩ | ⟨-, -, -, heq⟩ <;> rw [heq]
  · exact .head (.notice b _ rfl) (icmpSend _ _ _ _ h)
  · exact (Act.notice b _ rfl).acts
  · exact (Act.notice b _ rfl).acts

theorem drainOne {b : Netblk} (h : b.netReady = true) : Acts b (drainOne b) := by
  by_cases hicmp : 20 ≤ b.head.length ∧ byteAt b.head 9 = 1
  · rw [drainOne_of_icmp hicmp]
    exact (icmpHandle _ _ h).trans (lbConsume _)
  · rw [drainOne_of_other hicmp]
    exact lbConsume b

theorem drainLoop (fuel k : Nat) {b : Netblk} (h : b.netReady = true) : Acts b (drainLoop fuel k b).1 := by
  induction fuel generalizing k b with
  | zero => rfl
  | succ fuel ih =>
    rw [drainLoop_succ]
    split
    · rfl
    · exact (drainOne h).trans (ih (k + 1) ((SameButQueue.drainOne b).netReady.trans h))

theorem ipProcess {b : Netblk} (h : b.netReady = true) : Acts b (ipProcess b).1 :=
  (drainLoop (drainFuel b) 0 h).tail (.endView _)

end Acts

/-! ### The outcomes of the operations are none of them FAULTED -/

theorem lbEnqueue_status_ne (p : Bytes) (b : Netblk) : (lbEnqueue p b).2 ≠ .faulted := by
  rcases lbEnqueue_cases p b with ⟨-, h⟩ | ⟨-, -, h⟩ | ⟨-, -, h⟩ <;> rw [h] <;> nofun

theorem lbConsume_status_ne (b : Netblk) : (lbConsume b).2 ≠ .faulted := by
  rcases lbConsume_cases b with ⟨-, h⟩ | ⟨-, h⟩ <;> rw [h] <;> nofun

theorem ipSend_status_ne (dst : Word) (proto : Byte) (payload : Bytes) (b : Netblk) :
    (ipSend dst proto payload b).2 ≠ .faulted := by
  rcases ipSend_cases dst proto payload b with ⟨-, h⟩ | ⟨-, -, h⟩ | ⟨-, -, h⟩ <;> rw [h]
  · nofun
  · nofun
  · exact lbEnqueue_status_ne _ b

theorem icmpSend_status_ne (type : Byte) (dst idseq : Word) (data : Bytes) (b : Netblk) :
    (icmpSend type dst idseq data b).2 ≠ .faulted := by
  rcases icmpSend_cases type dst idseq data b with ⟨-, h⟩ | ⟨-, h⟩ <;> rw [h]
  · nofun
  · exact ipSend_status_ne _ _ _ b

/-! ### The commands -/

/-- R63 step 3: a command that needs the device and passed the check runs on a block that is up. -/
theorem netReady_of_requireInit {b : Netblk} {u : Unit} (h : requireInit b = .ok u) : b.netReady = true := by
  rcases requireInit_cases b with ⟨hr, -⟩ | ⟨-, he⟩
  · exact hr
  · cases h.symm.trans he

/-- R48: a destination span that passed the check lies in BUF, unless it is empty. -/
theorem checkDst_bounds {a n : Nat} {u : Unit} (h : checkDst a n = .ok u) (hn : n ≠ 0) : 0x1000 ≤ a ∧ a + n ≤ 0x2000 :=
  ((checkDst_ok_iff a n).mp h).resolve_left hn

section Bodies

variable {b c : Netblk}

theorem csumFeedBody_acts (h : csumFeedBody b = .ok c) : Acts b c := by
  obtain ⟨d, -, h⟩ := bind_eq_ok h
  cases h
  exact (Act.feed b d).acts.trans (Acts.setStatus _ (by decide))

theorem csumFinalBody_acts (h : csumFinalBody b = .ok c) : Acts b c := by
  cases h
  exact (Act.answer b _ b.res1 b.res2 b.res3 b.res4 .ok (by decide)).acts

/-- R75: CSUM_CALC clears the accumulator, feeds its span and reports. -/
theorem csumCalcBody_acts (h : csumCalcBody b = .ok c) : Acts b c := by
  obtain ⟨d, -, h⟩ := bind_eq_ok h
  cases h
  have hfed : Acts b { b with csum := csumFeed Accum.clear d } :=
    (Act.clearSum b).acts.tail (.feed { b with csum := Accum.clear } d)
  exact hfed.tail (.answer _ _ b.res1 b.res2 b.res3 b.res4 .ok (by decide))

theorem lbSendBody_acts (h : lbSendBody b = .ok c) : Acts b c := by
  obtain ⟨_, hready, h⟩ := bind_eq_ok h
  obtain ⟨p, -, h⟩ := bind_eq_ok h
  cases h
  exact (Acts.lbEnqueue p (netReady_of_requireInit hready)).trans (Acts.setStatus _ (lbEnqueue_status_ne p b))

theorem lbRecvBody_acts (h : lbRecvBody b = .ok c) : Acts b c := by
  obtain ⟨-, -, h⟩ := bind_eq_ok h
  split at h <;> cases h
  · exact (Act.endView b).acts.tail (.answer _ 0 b.res1 b.res2 b.res3 b.res4 .empty (by decide))
  · next hc => exact (Act.beginView b hc).acts.tail (.answer _ _ b.res1 b.res2 b.res3 b.res4 .ok (by decide))

theorem lbConsumeBody_acts (h : lbConsumeBody b = .ok c) : Acts b c := by
  obtain ⟨-, -, h⟩ := bind_eq_ok h
  cases h
  exact (Acts.lbConsume b).trans (Acts.setStatus _ (lbConsume_status_ne b))

theorem netInitBody_acts (h : netInitBody b = .ok c) : Acts b c := by
  unfold netInitBody at h
  split at h <;> cases h
  next hready => exact (Act.bringUp b (by simpa using hready)).acts.trans (Acts.setStatus _ (by decide))

theorem ipIsLoopbackBody_acts (h : ipIsLoopbackBody b = .ok c) : Acts b c := by
  cases h
  exact (Act.answer b _ b.res1 b.res2 b.res3 b.res4 .ok (by decide)).acts

/-- The header has a name, so that no comparison of blocks computes its checksum. -/
theorem ipBuildHdrBody_acts (h : ipBuildHdrBody b = .ok c) : Acts b c := by
  obtain ⟨proto, -, h⟩ := bind_eq_ok h
  obtain ⟨_, hdst, h⟩ := bind_eq_ok h
  obtain ⟨hlo, hhi⟩ := checkDst_bounds hdst (by decide)
  have hlen := buildHeader_length b.arg0 proto b.arg2.toNat
  generalize buildHeader b.arg0 proto b.arg2.toNat = header at h hlen
  split at h <;> cases h
  · exact Acts.setStatus b (by decide)
  · exact (Act.store b b.arg3.toNat header hlo (hlen.symm ▸ hhi)).acts.tail
      (.answer _ _ b.res1 b.res2 b.res3 b.res4 .ok (by decide))

theorem ipParseHdrBody_acts (h : ipParseHdrBody b = .ok c) : Acts b c := by
  obtain ⟨d, -, h⟩ := bind_eq_ok h
  split at h <;> cases h
  · exact Acts.setStatus b (by decide)
  · exact (Act.answer b _ _ _ _ _ .ok (by decide)).acts

theorem ipSendBody_acts (h : ipSendBody b = .ok c) : Acts b c := by
  obtain ⟨proto, -, h⟩ := bind_eq_ok h
  obtain ⟨_, hready, h⟩ := bind_eq_ok h
  obtain ⟨d, -, h⟩ := bind_eq_ok h
  cases h
  exact (Acts.ipSend b.arg0 proto d (netReady_of_requireInit hready)).trans (Acts.setStatus _ (ipSend_status_ne _ _ _ b))

theorem ipProcessBody_acts (h : ipProcessBody b = .ok c) : Acts b c := by
  obtain ⟨_, hready, h⟩ := bind_eq_ok h
  cases h
  exact (Acts.ipProcess (netReady_of_requireInit hready)).tail (.answer _ _ _ _ _ _ .ok (by decide))

theorem icmpInitBody_acts (h : icmpInitBody b = .ok c) : Acts b c := by
  cases h
  exact (Act.notice b .icmpReady rfl).acts.trans (Acts.setStatus _ (by decide))

/-- The frame has a name, so that no comparison of blocks computes its checksum. -/
theorem icmpBuildBody_acts {type : Byte} (h : icmpBuildBody type b = .ok c) : Acts b c := by
  obtain ⟨d, hd, h⟩ := bind_eq_ok h
  obtain ⟨_, hdst, h⟩ := bind_eq_ok h
  obtain ⟨hlo, hhi⟩ := checkDst_bounds hdst (by simp [Config.icmpHdrLen])
  have hlen : (buildEcho type b.arg0 d).length = Config.icmpHdrLen + b.arg2.toNat := by
    rw [buildEcho_length, memRead_length hd]
  generalize buildEcho type b.arg0 d = frame at h hlen
  split at h <;> cases h
  · exact Acts.setStatus b (by decide)
  · exact (Act.store b b.arg3.toNat frame hlo (hlen.symm ▸ hhi)).acts.tail
      (.answer _ _ _ b.res2 b.res3 b.res4 .ok (by decide))

theorem icmpSendBody_acts {type : Byte} (h : icmpSendBody type b = .ok c) : Acts b c := by
  obtain ⟨_, hready, h⟩ := bind_eq_ok h
  obtain ⟨d, -, h⟩ := bind_eq_ok h
  cases h
  exact (Acts.icmpSend type b.arg0 b.arg1 d (netReady_of_requireInit hready)).trans
    (Acts.setStatus _ (icmpSend_status_ne _ _ _ _ b))

theorem icmpHandleBody_acts (h : icmpHandleBody b = .ok c) : Acts b c := by
  obtain ⟨_, hready, h⟩ := bind_eq_ok h
  obtain ⟨d, -, h⟩ := bind_eq_ok h
  cases h
  exact (Acts.icmpHandle b.arg0 d (netReady_of_requireInit hready)).tail (.answer _ _ _ _ _ _ .ok (by decide))

/-- R63 step 4: what a command that ends does to the block. -/
theorem commandBody_acts {i : Instr} (h : commandBody i b = .ok c) : Acts b c := by
  cases i with
  | csumClear => cases h; exact (Act.clearSum b).acts.trans (Acts.setStatus _ (by decide))
  | csumFeed => exact csumFeedBody_acts h
  | csumFinal => exact csumFinalBody_acts h
  | csumCalc => exact csumCalcBody_acts h
  | lbSend => exact lbSendBody_acts h
  | lbRecv => exact lbRecvBody_acts h
  | lbConsume => exact lbConsumeBody_acts h
  | netInit => exact netInitBody_acts h
  | ipIsLoopback => exact ipIsLoopbackBody_acts h
  | ipBuildHdr => exact ipBuildHdrBody_acts h
  | ipParseHdr => exact ipParseHdrBody_acts h
  | ipSend => exact ipSendBody_acts h
  | ipProcess => exact ipProcessBody_acts h
  | icmpInit => exact icmpInitBody_acts h
  | icmpBuildReq | icmpBuildRep => exact icmpBuildBody_acts h
  | icmpSendReq | icmpSendRep => exact icmpSendBody_acts h
  | icmpHandle => exact icmpHandleBody_acts h
  | rd8 | wr8 | rd32 | wr32 => cases h

/-- R63, R115, R117: the command sequence adds the write of CMD, a fault and the report of a halted block. -/
theorem commandSequence_acts {body : Netblk → Except FaultCode Netblk}
    (hbody : ∀ b c, body b = .ok c → Acts b c) (w : Word) (b : Netblk) : Acts b (commandSequence w body b) := by
  have hcmd : Acts b { b with cmd := w } := (Act.writeCmd b w).acts
  rcases commandSequence_cases w body b with ⟨hs, h⟩ | ⟨-, f, -, h⟩ | ⟨-, c, hc, h⟩ <;> rw [h]
  · exact hcmd.tail (.reportHalted _ hs)
  · exact hcmd.tail (.commandFault _ f)
  · exact hcmd.trans (hbody _ _ hc)

end Bodies

/-! ### The transactions, the instructions and the step -/

section Port

variable (b : Netblk)

theorem readByte_acts (a : Nat) : Acts b (readByte b a).1 := by
  unfold readByte
  split
  · rfl
  · split
    · exact (Act.hostFault b .staleView).acts
    · split
      · exact (Act.hostFault b .bus).acts
      · rfl
  · exact (Act.hostFault b .bus).acts
  · exact (Act.hostFault b .bus).acts

theorem writeByte_acts (a : Nat) (v : Byte) : Acts b (writeByte a v b) := by
  rcases regionOf_cases a with ⟨-, h⟩ | ⟨hlo, hhi, h⟩ | ⟨-, -, h⟩ | ⟨-, h⟩ <;> simp only [writeByte, h]
  · exact (Act.hostFault b .bus).acts
  · exact (Act.store b a [v] hlo hhi).acts
  · exact (Act.hostFault b .bus).acts
  · exact (Act.hostFault b .bus).acts

theorem readWord_acts (a : Addr) : Acts b (readWord b a).1 := by
  unfold readWord
  split
  · rfl
  · exact (Act.hostFault b .bus).acts

theorem writeWord_acts (r : Option Reg) (v : Word) : Acts b (writeWord r v b) := by
  unfold writeWord
  split
  · exact (Act.writeArgs b v b.arg1 b.arg2 b.arg3).acts
  · exact (Act.writeArgs b b.arg0 v b.arg2 b.arg3).acts
  · exact (Act.writeArgs b b.arg0 b.arg1 v b.arg3).acts
  · exact (Act.writeArgs b b.arg0 b.arg1 b.arg2 v).acts
  · exact (Act.hostFault b .bus).acts

end Port

/-- What an instruction does to the block is a run of acts. -/
theorem exec_acts {i : Instr} {s t : State} (ht : exec i s = .next t) : Acts s.toNetblk t.toNetblk := by
  cases hj : startedCommand i with
  | some j =>
    obtain ⟨heq, w, hw⟩ := exec_of_startedCommand hj s
    rw [heq, exec_of_commandWord hw, runCommand_eq] at ht
    cases ht
    exact commandSequence_acts (fun _ _ => commandBody_acts) w s.toNetblk
  | none =>
    cases i with
    | rd8 a => cases ht; exact readByte_acts s.toNetblk a.toNat
    | wr8 a v => cases ht; exact writeByte_acts s.toNetblk a.toNat v
    | rd32 a => cases ht; exact readWord_acts s.toNetblk a
    | wr32 a v =>
      by_cases ha : a = 0
      · subst ha
        rw [exec_wr32_cmd_illegal hj, runCommand_eq] at ht
        cases ht
        exact commandSequence_acts (body := fun _ => .error .illegal) (fun _ _ hb => by cases hb) v s.toNetblk
      · rw [exec_wr32_of_ne_cmd ha] at ht
        cases ht
        exact writeWord_acts s.toNetblk (regAt a) v
    | _ => cases hj

theorem rejectRecord_toNetblk (h : Record) (s : State) :
    (rejectRecord h s).toNetblk = takeHostFault .bus s.toNetblk := by
  unfold rejectRecord
  split <;> rfl

/-- R7, R129: a step is a run of acts, or the reset input. -/
theorem step_acts_or_reset {s t : State} (ht : step s = .next t) :
    Acts s.toNetblk t.toNetblk ∨ ((∃ rest, s.pending = .reset :: rest) ∧ t.toNetblk = Netblk.reset) := by
  rcases step_cases s with h | ⟨rest, hp, h⟩ | ⟨rest, i, h⟩ | ⟨rest, r, h⟩ <;> rw [h] at ht
  · cases ht
    exact .inl .refl
  · cases ht
    exact .inr ⟨⟨rest, hp⟩, rfl⟩
  · exact .inl (exec_acts (s := { s with pending := rest }) ht)
  · cases ht
    rw [rejectRecord_toNetblk]
    exact .inl (Act.hostFault _ .bus).acts

/-! ## What every act keeps -/

/-! ### The trace only grows (R33) -/

theorem Act.events_prefix {b c : Netblk} (h : Act b c) : b.events <+: c.events := by
  cases h with
  | notice | push | pop => exact List.prefix_append _ _
  | _ => exact List.prefix_rfl

theorem Acts.events_prefix {b c : Netblk} (h : Acts b c) : b.events <+: c.events := by
  induction h with
  | refl => exact List.prefix_rfl
  | tail _ hact ih => exact ih.trans hact.events_prefix

/-- Settles O13: a step that is no reset is a run of acts, and an act appends to the trace or leaves it. -/
theorem eventsOnlyGrow : Obligations.EventsOnlyGrow := by
  intro s t hreset ht
  rcases step_acts_or_reset ht with hacts | ⟨⟨rest, hp⟩, -⟩
  · obtain ⟨es, hes⟩ := hacts.events_prefix
    exact ⟨es, hes.symm⟩
  · exact absurd hp (hreset rest)

end Sys2Proof.Machine

/-! ## The invariant under every act (R18, R23, R26, R29 to R31) -/

namespace Sys2Proof.Machine

open Sys2Proof

/-! ### The facts each clause rests on -/

/-- R114: no fault has a bit above 6. -/
theorem mask_high_bits (f : FaultCode) : f.mask.extractLsb' 7 25 = 0 := by cases f <;> decide

theorem mask_ne_zero (f : FaultCode) : f.mask ≠ 0 := by cases f <;> decide

theorem or_mask_ne_zero (x : Word) (f : FaultCode) : x ||| f.mask ≠ 0 :=
  fun h => mask_ne_zero f (BitVec.or_eq_zero_iff.mp h).2

theorem or_mask_high_bits {x : Word} (h : x.extractLsb' 7 25 = 0) (f : FaultCode) :
    (x ||| f.mask).extractLsb' 7 25 = 0 := by
  rw [BitVec.extractLsb'_or, h, mask_high_bits, BitVec.or_self]

/-- R23: FAULTED's code is its own. -/
theorem code_ne_faulted {x : Status} (hx : x ≠ .faulted) : x.code ≠ Status.faulted.code := by
  cases x with
  | faulted => exact absurd rfl hx
  | _ => decide

/-- R69: a byte fed is either held or completes a word, and then none is held. -/
theorem csumByte_hold_clear (a : Accum) (v : Byte) : (csumByte a v).odd = false → (csumByte a v).hold = 0 := by
  unfold csumByte
  split
  · exact fun _ => rfl
  · nofun

theorem csumFeed_hold_clear {a : Accum} (h : a.odd = false → a.hold = 0) (d : Bytes) :
    (csumFeed a d).odd = false → (csumFeed a d).hold = 0 := by
  induction d generalizing a with
  | nil => exact h
  | cons v d ih => exact ih (csumByte_hold_clear a v)

/-- R30: a packet that is not too long leaves every slot within its bound. -/
theorem slots_bounded_set {slot : Vector Bytes 16} (h : ∀ i : Fin 16, slot[i].length ≤ Config.lbSlotBytes)
    (wr : Fin 16) {p : Bytes} (hp : p.length ≤ 1514) (i : Fin 16) :
    (slot.set wr p)[i].length ≤ Config.lbSlotBytes := by
  rw [Fin.getElem_fin, Vector.getElem_set]
  split
  · exact hp
  · exact h i

/-! ### The acts -/

/-- The invariant is kept by every act that the rules allow. -/
theorem Act.inv {b c : Netblk} (h : Act b c) (hb : Inv b) : Inv c := by
  cases h with
  | notice | writeCmd | writeArgs => exact { hb with }
  | push p hready hroom hp =>
    exact { hb with
      slots_bounded := slots_bounded_set hb.slots_bounded b.queue.wr hp
      ring := onRing_pushPacket hb.ring hroom p
      view_has_packet := fun _ => by rw [pushPacket_count_val hroom]; omega
      ready_or_empty := fun hn => nomatch hready.symm.trans hn }
  | endView => exact { hb with view_has_packet := nofun }
  | pop hview hc =>
    exact { hb with
      ring := onRing_popPacket hb.ring hc
      view_has_packet := fun hv => nomatch hview.symm.trans hv
      ready_or_empty := fun hn => absurd (hb.ready_or_empty hn) (Fin.val_ne_zero_iff.mpr hc) }
  | beginView hc => exact { hb with view_has_packet := fun _ => Nat.pos_of_ne_zero (Fin.val_ne_zero_iff.mpr hc) }
  | bringUp => exact { hb with ring := rfl, view_has_packet := nofun, ready_or_empty := nofun }
  | clearSum => exact { hb with hold_clear := fun _ => rfl }
  | feed d => exact { hb with hold_clear := csumFeed_hold_clear hb.hold_clear d }
  | store a d hlo hhi => exact { hb with buf_wf := Memory.wf_writeBytes hb.buf_wf hlo hhi }
  | answer r0 r1 r2 r3 r4 x hx =>
    exact { hb with status_legal := ⟨x, rfl⟩, faulted_has_fault := fun h => absurd h (code_ne_faulted hx) }
  | commandFault f =>
    exact { hb with
      status_legal := ⟨.faulted, rfl⟩
      fault_bits := or_mask_high_bits hb.fault_bits f
      faulted_has_fault := fun _ => or_mask_ne_zero b.fault f }
  | hostFault f =>
    exact { hb with
      fault_bits := or_mask_high_bits hb.fault_bits f
      faulted_has_fault := fun _ => or_mask_ne_zero b.fault f }
  | reportHalted hs => exact { hb with status_legal := ⟨.faulted, rfl⟩, faulted_has_fault := fun _ => hs }

theorem Acts.inv {b c : Netblk} (h : Acts b c) (hb : Inv b) : Inv c := by
  induction h with
  | refl => exact hb
  | tail _ hact ih => exact hact.inv ih

/-- R35: the reset block has the invariant. -/
theorem inv_reset : Inv Netblk.reset where
  slots_bounded := by decide
  ring := rfl
  view_has_packet := nofun
  ready_or_empty := fun _ => rfl
  hold_clear := fun _ => rfl
  status_legal := ⟨.ok, rfl⟩
  fault_bits := by decide
  faulted_has_fault := nofun
  buf_wf := Memory.wf_reset

/-- Settles O10: a step is a run of acts, each of which keeps the invariant, or a reset. -/
theorem stepKeepsInvariant : Obligations.StepKeepsInvariant := by
  intro s t hs ht
  rcases step_acts_or_reset ht with hacts | ⟨-, hreset⟩
  · exact hacts.inv hs
  · exact hreset ▸ inv_reset

/-! ## The trace against the queue, under every act (R33, R85) -/

theorem enqueuedIn_append (t u : List Event) : enqueuedIn (t ++ u) = enqueuedIn t ++ enqueuedIn u :=
  List.filterMap_append

theorem consumedIn_append (t u : List Event) : consumedIn (t ++ u) = consumedIn t ++ consumedIn u :=
  List.filterMap_append

theorem enqueuedIn_notice {e : Event} (h : e.isNotice = true) : enqueuedIn [e] = [] := by
  cases e with
  | enqueue => cases h
  | _ => rfl

theorem consumedIn_notice {e : Event} (h : e.isNotice = true) : consumedIn [e] = [] := by
  cases e with
  | consume => cases h
  | _ => rfl

section Trace

variable {b c : Netblk}

/-- R85: what an act leaves of queue and trace decides the agreement. -/
theorem traceAgrees_congr (hq : b.queue = c.queue) (he : b.events = c.events) : TraceAgrees b ↔ TraceAgrees c := by
  rw [TraceAgrees, TraceAgrees, he, queued_congr hq]

theorem queued_of_empty (h : b.queue.count.val = 0) : queued b = [] :=
  List.eq_nil_of_length_eq_zero ((queued_length b).trans h)

theorem traceAgrees_notice (h : TraceAgrees b) {e : Event} (he : e.isNotice = true) : TraceAgrees (emit e b) := by
  have hqueue : queued (emit e b) = queued b := queued_congr (emit_queue b e)
  rw [TraceAgrees, emit_events, hqueue, enqueuedIn_append, consumedIn_append, enqueuedIn_notice he,
    consumedIn_notice he, List.append_nil, List.append_nil]
  exact h

/-- R79, R85: a packet enqueued comes last in the trace's account and last in the queue. -/
theorem traceAgrees_pushPacket (h : TraceAgrees b) (hring : OnRing b) (hroom : b.queue.count.val < 16) (p : Bytes) :
    TraceAgrees (pushPacket p b) := by
  have henq : enqueuedIn (b.events ++ [.enqueue p]) = enqueuedIn b.events ++ [p] := enqueuedIn_append _ _
  have hcon : consumedIn (b.events ++ [.enqueue p]) = consumedIn b.events :=
    (consumedIn_append _ _).trans (List.append_nil _)
  have hagree : enqueuedIn b.events = consumedIn b.events ++ queued b := h
  rw [TraceAgrees, pushPacket_events, henq, hcon, queued_pushPacket hring hroom, hagree, List.append_assoc]

/-- R80, R85: the packet removed is the first of the queue and the last of those consumed. -/
theorem traceAgrees_popPacket (h : TraceAgrees b) (hc : b.queue.count ≠ 0) : TraceAgrees (popPacket b) := by
  have henq : enqueuedIn (b.events ++ [.consume b.head]) = enqueuedIn b.events :=
    (enqueuedIn_append _ _).trans (List.append_nil _)
  have hcon : consumedIn (b.events ++ [.consume b.head]) = consumedIn b.events ++ [b.head] := consumedIn_append _ _
  have hagree : enqueuedIn b.events = consumedIn b.events ++ queued b := h
  rw [TraceAgrees, popPacket_events, henq, hcon, hagree, queued_of_packet hc, List.append_assoc]
  rfl

/-- R91: NET_INIT empties a queue that was empty already. -/
theorem traceAgrees_of_empty (h : TraceAgrees b) (hb : b.queue.count.val = 0) (hc : c.queue.count.val = 0)
    (he : b.events = c.events) : TraceAgrees c := by
  have hagree : enqueuedIn b.events = consumedIn b.events ++ queued b := h
  rw [TraceAgrees, ← he, hagree, queued_of_empty hb, queued_of_empty hc]

/-- R85: every act keeps the trace's account of the queue. -/
theorem Act.traceAgrees (h : Act b c) (hb : Inv b) (ht : TraceAgrees b) : TraceAgrees c := by
  cases h with
  | notice e he => exact traceAgrees_notice ht he
  | push p _ hroom _ => exact traceAgrees_pushPacket ht hb.ring hroom p
  | pop _ hc => exact traceAgrees_popPacket ht hc
  | bringUp hready => exact traceAgrees_of_empty ht (hb.ready_or_empty hready) rfl rfl
  | _ => exact (traceAgrees_congr rfl rfl).mp ht

theorem Acts.traceAgrees (h : Acts b c) (hb : Inv b) (ht : TraceAgrees b) : TraceAgrees c := by
  induction h with
  | refl => exact ht
  | tail hacts hact ih => exact hact.traceAgrees (Acts.inv hacts hb) ih

end Trace

theorem traceAgrees_reset : TraceAgrees Netblk.reset := rfl

/-- Settles O11: along a run of acts the invariant gives the ring and the empty queue before NET_INIT that the account
needs; a reset empties both sides. -/
theorem stepKeepsFifoTrace : Obligations.StepKeepsFifoTrace := by
  intro s t hs htrace ht
  rcases step_acts_or_reset ht with hacts | ⟨-, hreset⟩
  · exact hacts.traceAgrees hs htrace
  · exact hreset ▸ traceAgrees_reset

/-- Settles O9: the reset block lists no event and no packet. -/
theorem resetHasInvariants : Obligations.ResetHasInvariants := ⟨inv_reset, traceAgrees_reset⟩

end Sys2Proof.Machine

/-! ## Command words and records, decoded and encoded (R57, R58, R60) -/

namespace Sys2Proof.Machine

open Sys2Proof

/-! ### Command words -/

/-- R60: a command's word is legal and decodes to it. -/
theorem decodeCommand_of_commandWord {i : Instr} {w : Word} (h : commandWord i = some w) : decodeCommand w = some i := by
  cases i <;> cases h <;> rfl

theorem decodeCommand_eq_some_iff {w : Word} {i : Instr} : decodeCommand w = some i ↔ commandWord i = some w :=
  ⟨commandWord_of_decodeCommand, decodeCommand_of_commandWord⟩

theorem mem_legalCommandWords_of_commandWord {i : Instr} {w : Word} (h : commandWord i = some w) :
    w ∈ legalCommandWords := by
  cases i <;> cases h <;> decide

theorem isSome_decodeCommand_iff (w : Word) : (decodeCommand w).isSome = true ↔ w ∈ legalCommandWords := by
  constructor
  · intro h
    obtain ⟨i, hi⟩ := Option.isSome_iff_exists.mp h
    exact mem_legalCommandWords_of_commandWord (commandWord_of_decodeCommand hi)
  · have hall : legalCommandWords.all (fun w => (decodeCommand w).isSome) = true := rfl
    exact List.all_eq_true.mp hall w

theorem decodeCommand_eq_none_iff (w : Word) : decodeCommand w = none ↔ w ∉ legalCommandWords := by
  rw [← isSome_decodeCommand_iff, Option.not_isSome_iff_eq_none]

/-- Settles O4: each legal word is the word of one command, and the decoder finds that command. -/
theorem legalCommandWords_iff : Obligations.LegalCommandWords :=
  ⟨isSome_decodeCommand_iff, fun _ _ => decodeCommand_eq_some_iff⟩

/-! ### The decoder, by the kind of the record -/

/-- R57: the two bits of a record's kind name one of the four transactions. -/
theorem kind_cases (k : BitVec 2) : k = 0 ∨ k = 1 ∨ k = 2 ∨ k = 3 := by
  revert k
  decide

section Decode

variable {h : Record}

/-- The upper bits of a record's data field, counted from either end. -/
theorem data_extractLsb' (h : Record) (k n : Nat) (hk : k + n ≤ 32) :
    (h.extractLsb' 32 32).extractLsb' k n = h.extractLsb' (32 + k) n := by
  ext j hj
  have hlt : k + j < 32 := by omega
  simp [hlt, Nat.add_assoc]

theorem decode_reserved (hres : h.extractLsb' 2 14 ≠ 0) : decode h = .error .reservedNotZero := if_pos hres

theorem decode_rd8 (hres : h.extractLsb' 2 14 = 0) (hk : h.extractLsb' 0 2 = 0) :
    decode h = if h.extractLsb' 32 32 = 0 then .ok (.rd8 (h.extractLsb' 16 16)) else .error .readDataNotZero := by
  simp only [decode, hk]
  exact if_neg (not_not.mpr hres)

theorem decode_wr8 (hres : h.extractLsb' 2 14 = 0) (hk : h.extractLsb' 0 2 = 1) :
    decode h = if h.extractLsb' 40 24 = 0 then .ok (.wr8 (h.extractLsb' 16 16) (h.extractLsb' 32 8))
      else .error .byteDataTooWide := by
  rw [← data_extractLsb' h 8 24 le_rfl, ← data_extractLsb' h 0 8 (by decide)]
  simp only [decode, hk]
  exact if_neg (not_not.mpr hres)

theorem decode_rd32 (hres : h.extractLsb' 2 14 = 0) (hk : h.extractLsb' 0 2 = 2) :
    decode h = if h.extractLsb' 32 32 = 0 then .ok (.rd32 (h.extractLsb' 16 16)) else .error .readDataNotZero := by
  simp only [decode, hk]
  exact if_neg (not_not.mpr hres)

/-- R22, R57: a WR32 decodes to the command it starts, if it starts one. -/
theorem decode_wr32 (hres : h.extractLsb' 2 14 = 0) (hk : h.extractLsb' 0 2 = 3) :
    decode h = .ok ((startedCommand (.wr32 (h.extractLsb' 16 16) (h.extractLsb' 32 32))).getD
      (.wr32 (h.extractLsb' 16 16) (h.extractLsb' 32 32))) := by
  have hdecode : decode h = if h.extractLsb' 16 16 = 0 then
      (match decodeCommand (h.extractLsb' 32 32) with
        | some c => .ok c
        | none => .ok (.wr32 (h.extractLsb' 16 16) (h.extractLsb' 32 32)))
      else .ok (.wr32 (h.extractLsb' 16 16) (h.extractLsb' 32 32)) := by
    simp only [decode, hk]
    exact if_neg (not_not.mpr hres)
  rw [hdecode, startedCommand]
  split
  · cases decodeCommand (h.extractLsb' 32 32) <;> rfl
  · rfl

end Decode

/-! ### The record of an instruction -/

/-- R57: the fields of an admitted record make up the record. -/
theorem record_of_fields {h : Record} (hres : h.extractLsb' 2 14 = 0) :
    record (h.extractLsb' 0 2) (h.extractLsb' 16 16) (h.extractLsb' 32 32) = h := by
  have hlt := h.isLt
  have hbits := (extractLsb'_eq_iff h 2 14 0).mp hres
  apply BitVec.eq_of_toNat_eq
  simp only [record_toNat, extractLsb'_toNat_eq_div_mod, BitVec.ofNat_eq_ofNat, BitVec.toNat_ofNat] at hbits ⊢
  omega

/-- R57: a data field that fits in a byte is that byte, zero-extended. -/
theorem setWidth_byte_of_upper_zero {h : Record} (hup : h.extractLsb' 40 24 = 0) :
    (h.extractLsb' 32 8).setWidth 32 = h.extractLsb' 32 32 := by
  have hlt := h.isLt
  have hbits := (extractLsb'_eq_iff h 40 24 0).mp hup
  apply BitVec.eq_of_toNat_eq
  simp only [BitVec.toNat_setWidth, extractLsb'_toNat_eq_div_mod, BitVec.ofNat_eq_ofNat, BitVec.toNat_ofNat] at hbits ⊢
  omega

theorem record_byteData (k : BitVec 2) (a : Addr) (v : Byte) :
    (record k a (v.setWidth 32)).extractLsb' 40 24 = 0 ∧ (record k a (v.setWidth 32)).extractLsb' 32 8 = v := by
  have hup := data_extractLsb' (record k a (v.setWidth 32)) 8 24 le_rfl
  have hlow := data_extractLsb' (record k a (v.setWidth 32)) 0 8 (by decide)
  have hv := v.isLt
  rw [record_data] at hup hlow
  rw [← hup, ← hlow]
  simp only [extractLsb'_eq_iff, BitVec.toNat_setWidth, BitVec.ofNat_eq_ofNat, BitVec.toNat_ofNat]
  omega

/-- R58, R66: the record of a command is the WR32 of its word to CMD. -/
theorem encode_of_commandWord {i : Instr} {w : Word} (h : commandWord i = some w) : encode i = record 3 0 w := by
  cases i <;> cases h <;> rfl

theorem wellFormed_of_commandWord {i : Instr} {w : Word} (h : commandWord i = some w) : WellFormed i = true := by
  cases i <;> cases h <;> rfl

/-- R22: a WR32 is well formed exactly when it starts no command. -/
theorem wellFormed_wr32_iff (a : Addr) (v : Word) : WellFormed (.wr32 a v) = true ↔ startedCommand (.wr32 a v) = none := by
  simp [WellFormed, startedCommand, decodeCommand_eq_none_iff, imp_iff_not_or]

/-- R57: the record of a WR32, legal command word or not, decodes to the command it starts, if it starts one. -/
theorem decode_record_wr32 (a : Addr) (v : Word) :
    decode (record 3 a v) = .ok ((startedCommand (.wr32 a v)).getD (.wr32 a v)) := by
  rw [decode_wr32 (record_reserved 3 a v) (record_kind 3 a v), record_addr, record_data]

theorem decode_encode_of_commandWord {i : Instr} {w : Word} (h : commandWord i = some w) : decode (encode i) = .ok i := by
  have hstarts : startedCommand (.wr32 0 w) = some i := decodeCommand_of_commandWord h
  rw [encode_of_commandWord h, decode_record_wr32, hstarts, Option.getD_some]

/-- Settles O1: the fields of a transaction's record are read back, and a command's word decodes to the command. -/
theorem decodeEncodeRoundTrip : Obligations.DecodeEncodeRoundTrip := by
  intro i hwf
  cases i with
  | rd8 a =>
    show decode (record 0 a 0) = _
    rw [decode_rd8 (record_reserved 0 a 0) (record_kind 0 a 0), record_data, record_addr, if_pos rfl]
  | wr8 a v =>
    obtain ⟨hup, hlow⟩ := record_byteData 1 a v
    show decode (record 1 a (v.setWidth 32)) = _
    rw [decode_wr8 (record_reserved 1 a _) (record_kind 1 a _), if_pos hup, hlow, record_addr]
  | rd32 a =>
    show decode (record 2 a 0) = _
    rw [decode_rd32 (record_reserved 2 a 0) (record_kind 2 a 0), record_data, record_addr, if_pos rfl]
  | wr32 a v =>
    show decode (record 3 a v) = _
    rw [decode_record_wr32, (wellFormed_wr32_iff a v).mp hwf, Option.getD_none]
  | _ => exact decode_encode_of_commandWord rfl

/-- R22: the command that a WR32 starts has that WR32's record. -/
theorem encode_of_startedCommand {a : Addr} {v : Word} {j : Instr} (h : startedCommand (.wr32 a v) = some j) :
    WellFormed j = true ∧ encode j = record 3 a v := by
  obtain ⟨rfl, hd⟩ := Option.ite_none_right_eq_some.mp h
  have hw := commandWord_of_decodeCommand hd
  exact ⟨wellFormed_of_commandWord hw, encode_of_commandWord hw⟩

/-- R57: an admitted record is a WR32 or has data that fits its kind. -/
theorem encode_of_decode {h : Record} {i : Instr} (hd : decode h = .ok i) : WellFormed i = true ∧ encode i = h := by
  by_cases hres : h.extractLsb' 2 14 = 0
  · have hfields := record_of_fields hres
    rcases kind_cases (h.extractLsb' 0 2) with hk | hk | hk | hk <;> rw [hk] at hfields
    · rw [decode_rd8 hres hk] at hd
      split at hd <;> cases hd
      next hdata =>
        rw [hdata] at hfields
        exact ⟨rfl, hfields⟩
    · rw [decode_wr8 hres hk] at hd
      split at hd <;> cases hd
      next hup =>
        rw [← setWidth_byte_of_upper_zero hup] at hfields
        exact ⟨rfl, hfields⟩
    · rw [decode_rd32 hres hk] at hd
      split at hd <;> cases hd
      next hdata =>
        rw [hdata] at hfields
        exact ⟨rfl, hfields⟩
    · rw [decode_wr32 hres hk] at hd
      cases hj : startedCommand (.wr32 (h.extractLsb' 16 16) (h.extractLsb' 32 32)) with
      | none =>
        rw [hj] at hd
        cases hd
        exact ⟨(wellFormed_wr32_iff _ _).mpr hj, hfields⟩
      | some j =>
        rw [hj] at hd
        cases hd
        obtain ⟨hwf, henc⟩ := encode_of_startedCommand hj
        exact ⟨hwf, henc.trans hfields⟩
  · rw [decode_reserved hres] at hd
    cases hd

/-- Settles O2: by the kind of the record. -/
theorem encodeDecodeRoundTrip : Obligations.EncodeDecodeRoundTrip := fun _ _ => encode_of_decode

/-- Settles O3: each record is a literal. -/
theorem specWordsDecode : Obligations.SpecWordsDecode := ⟨rfl, rfl, rfl, rfl, rfl, rfl, rfl, rfl, rfl⟩

/-! ### The port's answer to a record (R57, R116) -/

/-- R57: the kinds that read are RD8 and RD32. -/
theorem kind_of_read {h : Record} (hread : h.extractLsb' 0 1 = 0) : h.extractLsb' 0 2 = 0 ∨ h.extractLsb' 0 2 = 2 := by
  simp only [extractLsb'_eq_iff, BitVec.ofNat_eq_ofNat, BitVec.toNat_ofNat] at hread ⊢
  omega

/-- R57: the records that are no transaction. -/
def Malformed (h : Record) : Prop :=
  h.extractLsb' 2 14 ≠ 0 ∨ (h.extractLsb' 0 1 = 0 ∧ h.extractLsb' 32 32 ≠ 0) ∨
    (h.extractLsb' 0 2 = 1 ∧ h.extractLsb' 40 24 ≠ 0)

theorem decode_of_malformed {h : Record} (hbad : Malformed h) : ∃ e, decode h = .error e := by
  by_cases hres : h.extractLsb' 2 14 = 0
  · rcases hbad with hne | ⟨hread, hdata⟩ | ⟨hk, hup⟩
    · exact absurd hres hne
    · rcases kind_of_read hread with hk | hk
      · exact ⟨_, (decode_rd8 hres hk).trans (if_neg hdata)⟩
      · exact ⟨_, (decode_rd32 hres hk).trans (if_neg hdata)⟩
    · exact ⟨_, (decode_wr8 hres hk).trans (if_neg hup)⟩
  · exact ⟨_, decode_reserved hres⟩

/-- R57, R116: a refused record is a bus fault, and a refused read returns 0. -/
theorem rejectRecord_eq (h : Record) (s : State) :
    rejectRecord h s = if h.extractLsb' 0 1 = 0 then s.busFaulted.returned 0 else s.busFaulted := by
  by_cases hread : h.extractLsb' 0 1 = 0
  · rw [if_pos hread]
    exact if_pos (decide_eq_true hread)
  · rw [if_neg hread]
    exact if_neg (ne_true_of_eq_false (decide_eq_false hread))

/-- R22: the command that a WR32 starts is what the WR32 does. -/
theorem exec_startedCommand_getD (i : Instr) (s : State) : exec ((startedCommand i).getD i) s = exec i s := by
  cases hj : startedCommand i with
  | none => rfl
  | some j => exact (exec_of_startedCommand hj s).1.symm

/-- R57: what RD8 returns is a byte, also where it is refused. -/
theorem readByte_value (b : Netblk) (a : Nat) : ∃ v : Byte, (readByte b a).2 = v.setWidth 32 := by
  unfold readByte
  split
  · exact ⟨_, rfl⟩
  · split
    · exact ⟨0, rfl⟩
    · split
      · exact ⟨0, rfl⟩
      · exact ⟨_, rfl⟩
  · exact ⟨0, rfl⟩
  · exact ⟨0, rfl⟩

/-- Settles O5: a malformed record is refused by the decoder, a well-formed one decodes by its kind, and a read appends
its value. -/
theorem hostTransactionFormat : Obligations.HostTransactionFormat := by
  refine ⟨fun s h rest hp => ⟨fun hbad => ?malformed, fun hres =>
    ⟨fun hk hdata => ?rd8, fun hk hup => ?wr8, fun hk hdata => ?rd32, fun hk => ?wr32⟩⟩,
    fun a s t ht => ?byte, fun a s t ht => ?word⟩
  case malformed =>
    obtain ⟨e, he⟩ := decode_of_malformed hbad
    rw [step_of_decode_error hp he, rejectRecord_eq]
  case rd8 => exact step_of_decode_ok hp ((decode_rd8 hres hk).trans (if_pos hdata))
  case wr8 => exact step_of_decode_ok hp ((decode_wr8 hres hk).trans (if_pos hup))
  case rd32 => exact step_of_decode_ok hp ((decode_rd32 hres hk).trans (if_pos hdata))
  case wr32 => rw [step_of_decode_ok hp (decode_wr32 hres hk), exec_startedCommand_getD]
  case byte =>
    cases ht
    obtain ⟨v, hv⟩ := readByte_value s.toNetblk a.toNat
    exact ⟨v, congrArg (s.readData ++ [·]) hv⟩
  case word =>
    cases ht
    exact ⟨_, rfl⟩

/-! ### An illegal word in CMD (R62) -/

theorem decodeCommand_of_wide {w : Word} (h : w.extractLsb' 8 24 ≠ 0) : decodeCommand w = none := if_neg h

/-- Settles O56: the word decodes to no command, so the command sequence faults on it. -/
theorem illegalWordFaults : Obligations.IllegalWordFaults := by
  intro s w hs hw
  have hnone : decodeCommand w = none := hw.elim decodeCommand_of_wide (decodeCommand_eq_none_iff w).mpr
  rw [exec_wr32_cmd_illegal hnone, runCommand_eq, commandSequence_of_error hs rfl]
  rfl

end Sys2Proof.Machine

/-! ## The checksum as a sum, and spans as one stream (R67, R71) -/

namespace Sys2Proof.Machine

open Sys2Proof

/-- R67: a word of a sequence, and that word once two more bytes stand before it. -/
theorem be16_cons_cons (x y : Byte) (s : Bytes) (k : Nat) : be16 (x :: y :: s) (2 * (k + 1)) = be16 s (2 * k) := rfl

/-- R67: the words by their indices, and an odd last byte as a high byte. -/
theorem wordSum_eq_sum (s : Bytes) :
    wordSum s = ((List.range (s.length / 2)).map (fun k => (be16 s (2 * k)).toNat)).sum +
      (if s.length % 2 = 1 then (byteAt s (s.length - 1)).toNat * 256 else 0) := by
  induction s using wordSum.induct with
  | case1 => rfl
  | case2 x => simp [wordSum, byteAt]
  | case3 x y s ih =>
    have hhalf : (x :: y :: s).length / 2 = s.length / 2 + 1 := by rw [List.length_cons, List.length_cons]; omega
    have hparity : (x :: y :: s).length % 2 = s.length % 2 := by rw [List.length_cons, List.length_cons]; omega
    have hfirst : (be16 (x :: y :: s) (2 * 0)).toNat = x.toNat * 256 + y.toNat := word16_toNat x y
    have hlast : s.length % 2 = 1 → byteAt (x :: y :: s) ((x :: y :: s).length - 1) = byteAt s (s.length - 1) := by
      intro hodd
      obtain ⟨n, hn⟩ : ∃ n, s.length = n + 1 := ⟨s.length - 1, by omega⟩
      simp [byteAt, hn]
    rw [wordSum, ih, hhalf, hparity, List.range_succ_eq_map, List.map_cons, List.sum_cons, hfirst, List.map_map]
    simp only [Function.comp_def, Nat.succ_eq_add_one, be16_cons_cons]
    split
    · next hodd => rw [hlast hodd]; omega
    · omega

theorem wordSum_replicate_zero (n : Nat) : wordSum (List.replicate n 0) = 0 := by
  induction n using Nat.twoStepInduction with
  | zero => rfl
  | one => rfl
  | more n ih _ =>
    simp only [List.replicate_succ, wordSum, ih]
    rfl

/-- Settles O23: the fold is the residue, and a sum of zeros is 0. -/
theorem checksumFunction : Obligations.ChecksumFunction := by
  refine ⟨wordSum_eq_sum, checksum_toNat, fun n => ?_, checksum_eq_zero_iff⟩
  apply BitVec.eq_of_toNat_eq
  rw [checksum_toNat, wordSum_replicate_zero]
  rfl

/-- Settles O25: feeding is a fold over bytes, so feeding span after span is feeding their concatenation. -/
theorem spansFeedAsOneStream : Obligations.SpansFeedAsOneStream := by
  intro spans
  have hstream : spans.foldl csumFeed Accum.clear = csumFeed Accum.clear spans.flatten := List.foldl_flatten.symm
  rw [hstream, accumulatorRealisesChecksum]

/-! ## The reply's checksum (R106) -/

/-- R101: the checksum field of a frame is the checksum of the frame with that field zero. -/
theorem be16_buildEcho_checksum (type : Byte) (idseq : Word) (data : Bytes) :
    be16 (buildEcho type idseq data) 2 = checksum (echoZeroed type idseq data) := word16_bytes _

/-- R100: the type is the high byte of the first word. -/
theorem wordSum_echoZeroed (type : Byte) (idseq : Word) (data : Bytes) :
    wordSum (echoZeroed type idseq data) = wordSum (echoZeroed 0 idseq data) + type.toNat * 256 := by
  have hframe : ∀ type, echoZeroed type idseq data =
      type :: 0x00 :: 0x00 :: 0x00 :: (bytes16 (idseqIdent idseq) ++ bytes16 (idseqSeq idseq) ++ data) := fun _ => rfl
  have hzero : (0 : Byte).toNat = 0 := rfl
  simp only [hframe, wordSum, hzero]
  omega

/-- R106: leaving a positive `m` out of a sum adds it to the complement, but that the complement 0 comes out as all
ones. -/
theorem onesResidue_complement_add (n : Nat) {m : Nat} (hm : 0 < m) :
    onesResidue (0xFFFF - onesResidue (n + m) + m) =
      if onesResidue n = 0xFFFF then 0xFFFF else 0xFFFF - onesResidue n := by
  unfold onesResidue
  split_ifs <;> omega

/-- Settles O49: the request's sum is the reply's plus 0x0800. -/
theorem replyChecksum : Obligations.ReplyChecksum := by
  intro idseq data
  have hsum : (onesAdd (be16 (buildEcho 8 idseq data) 2) 0x0800).toNat =
      if onesResidue (wordSum (echoZeroed 0 idseq data)) = 0xFFFF then 0xFFFF
      else (be16 (buildEcho 0 idseq data) 2).toNat := by
    rw [onesAdd_toNat, be16_buildEcho_checksum, be16_buildEcho_checksum, checksum_toNat, checksum_toNat,
      wordSum_echoZeroed 8]
    exact onesResidue_complement_add _ (by decide)
  have hzero : be16 (buildEcho 0 idseq data) 2 = 0 ↔ onesResidue (wordSum (echoZeroed 0 idseq data)) = 0xFFFF := by
    rw [be16_buildEcho_checksum, checksum_eq_zero_iff, fold_eq_onesResidue]
  refine ⟨fun hne => ?_, fun hz => ?_⟩
  · rw [if_neg (mt hzero.mpr hne)] at hsum
    exact (BitVec.eq_of_toNat_eq hsum).symm
  · rw [if_pos (hzero.mp hz)] at hsum
    exact BitVec.eq_of_toNat_eq hsum

end Sys2Proof.Machine

/-! ## The queue as a list, and where packets come from (R79, R80, R85, R96, R98, R99) -/

namespace Sys2Proof.Machine

open Sys2Proof

/-- Settles O35: the lemmas of the queue as a list, on the ring that the invariant gives. -/
theorem queueIsFifo : Obligations.QueueIsFifo := by
  refine fun b hb => ⟨fun p hroom hp => ?room, fun hc => ?packet, fun hc => ?empty⟩
  case room =>
    exact ⟨pushPacket p b, lbEnqueue_of_room hroom.ne hp, queued_pushPacket hb.ring hroom p, pushPacket_events b p,
      pushPacket_view b p⟩
  case packet =>
    have hne : b.queue.count ≠ 0 := Fin.val_ne_zero_iff.mp hc
    exact ⟨_, lbConsume_of_packet hne, b.head, queued_of_packet hne, popPacket_events _, popPacket_view _⟩
  case empty => exact ⟨queued_of_empty hc, lbConsume_of_empty (Fin.val_eq_zero_iff.mp hc)⟩

/-- Settles O47: the two ends of the send primitive, and the queue's law for the packet that is enqueued. -/
theorem routing : Obligations.Routing := by
  refine ⟨fun dst proto payload b hdst => if_pos (beq_eq_false_iff_ne.mpr hdst), fun proto payload b hb hlen hroom => ?_⟩
  have hheader := buildHeader_length 0x7F000001 proto payload.length
  have hfits : (buildHeader 0x7F000001 proto payload.length ++ payload).length ≤ 1514 := by
    rw [List.length_append]
    omega
  have hip : ¬ 20 + payload.length > 1500 := by omega
  refine ⟨_, ?_, queued_pushPacket hb.ring hroom _⟩
  rw [← lbEnqueue_of_room hroom.ne hfits]
  exact (if_neg (by decide)).trans (if_neg hip)

/-- Settles O44: the test of the head packet is the one of `drainOne_of_icmp`. -/
theorem drainIteration : Obligations.DrainIteration := by
  refine fun b _ => ⟨fun hother => ?_, fun hlen hproto => drainOne_of_icmp ⟨hlen, hproto⟩⟩
  exact drainOne_of_other fun ⟨hlen, hproto⟩ => hother.elim (Nat.not_lt.mpr hlen) (absurd hproto)

section Enqueued

variable (b : Netblk)

/-- R102: an ICMP send writes one packet, the echo in its header, or nothing. -/
theorem icmpSend_echoPacket (type : Byte) (dst idseq : Word) (data : Bytes) :
    (icmpSend type dst idseq data b).1 = b ∨
    (icmpSend type dst idseq data b).1 = pushPacket (echoPacket type dst idseq data) b := by
  rcases icmpSend_cases type dst idseq data b with ⟨-, h⟩ | ⟨-, h⟩ <;> rw [h]
  · exact .inl rfl
  · rcases ipSend_cases dst 1 (buildEcho type idseq data) b with ⟨-, hip⟩ | ⟨-, -, hip⟩ | ⟨-, -, hip⟩ <;> rw [hip]
    · exact .inl rfl
    · exact .inl rfl
    · rw [buildEcho_length, ← echoPacket]
      rcases lbEnqueue_cases (echoPacket type dst idseq data) b with ⟨-, hlb⟩ | ⟨-, -, hlb⟩ | ⟨-, -, hlb⟩ <;> rw [hlb]
      · exact .inl rfl
      · exact .inl rfl
      · exact .inr rfl

theorem enqueuedIn_emit_notice {e : Event} (h : e.isNotice = true) :
    enqueuedIn (emit e b).events = enqueuedIn b.events := by
  rw [emit_events, enqueuedIn_append, enqueuedIn_notice h, List.append_nil]

/-- R80: a removal enqueues nothing. -/
theorem enqueuedIn_lbConsume : enqueuedIn (lbConsume b).1.events = enqueuedIn b.events := by
  rcases lbConsume_cases b with ⟨-, h⟩ | ⟨-, h⟩ <;> rw [h]
  exact (enqueuedIn_append _ _).trans (List.append_nil _)

/-- R98, R103: the inbound handler enqueues nothing, or one echo reply for an echo request. -/
theorem enqueuedIn_icmpHandle (src : Word) (d : Bytes) :
    enqueuedIn (icmpHandle src d b).1.events = enqueuedIn b.events ∨
    (8 ≤ d.length ∧ byteAt d 0 = 8 ∧ ∃ idseq data,
      enqueuedIn (icmpHandle src d b).1.events = enqueuedIn b.events ++ [echoPacket 0 src idseq data]) := by
  rcases icmpHandle_cases src d b with ⟨-, h⟩ | ⟨hlen, htype, h⟩ | ⟨-, -, h⟩ | ⟨-, -, -, h⟩ <;> rw [h]
  · exact .inl rfl
  · have hnotice := enqueuedIn_emit_notice b (e := .echoRequestRx src (be16 d 4) (be16 d 6) (d.drop 8).length) rfl
    rcases icmpSend_echoPacket (emit (.echoRequestRx src (be16 d 4) (be16 d 6) (d.drop 8).length) b) 0 src
      (word32 (be16 d 4) (be16 d 6)) (d.drop 8) with hsend | hsend <;> rw [hsend]
    · exact .inl hnotice
    · refine .inr ⟨hlen, htype, word32 (be16 d 4) (be16 d 6), d.drop 8, ?_⟩
      rw [pushPacket_events, enqueuedIn_append, hnotice]
      rfl
  · exact .inl (enqueuedIn_emit_notice b rfl)
  · exact .inl (enqueuedIn_emit_notice b rfl)

end Enqueued

/-- Settles O45: only the handler enqueues, and it is given what follows the header of an ICMP packet. -/
theorem drainAnswersOnlyRequests : Obligations.DrainAnswersOnlyRequests := by
  intro b _
  by_cases hicmp : 20 ≤ b.head.length ∧ byteAt b.head 9 = 1
  · rw [drainOne_of_icmp hicmp, enqueuedIn_lbConsume]
    rcases enqueuedIn_icmpHandle b (be32 b.head 12) (b.head.drop 20) with h | ⟨hlen, htype, idseq, data, h⟩
    · exact .inl h
    · rw [List.length_drop] at hlen
      rw [byteAt_drop] at htype
      have hrequest : 28 ≤ b.head.length := by omega
      exact .inr ⟨hrequest, hicmp.2, htype, _, h, byteAt_echoPacket_proto _ _ _ _, byteAt_echoPacket_type _ _ _ _ _ _⟩
  · rw [drainOne_of_other hicmp, enqueuedIn_lbConsume]
    exact .inl rfl

end Sys2Proof.Machine

/-! ## Which instructions write the operands, the results and STATUS (R19, R24, R25) -/

namespace Sys2Proof.Machine

open Sys2Proof

/-- R21: where each register stands. -/
def regAddr : Reg → Addr
  | .cmd => 0x00
  | .status => 0x04
  | .arg0 => 0x08
  | .arg1 => 0x0C
  | .arg2 => 0x10
  | .arg3 => 0x14
  | .res0 => 0x18
  | .res1 => 0x1C
  | .res2 => 0x20
  | .res3 => 0x24
  | .res4 => 0x28
  | .fault => 0x2C
  | .csumState => 0x30
  | .fifoState => 0x34

/-- R21: an address that names a register is that register's. -/
theorem eq_regAddr_of_regAt {a : Addr} {r : Reg} (h : regAt a = some r) : a = regAddr r := by
  unfold regAt at h
  split at h <;> cases h
  all_goals
    next h0 => exact BitVec.eq_of_toNat_eq h0

/-- `c` agrees with `b` in ARG0 to ARG3. -/
structure SameArgs (b c : Netblk) : Prop where
  arg0 : c.arg0 = b.arg0
  arg1 : c.arg1 = b.arg1
  arg2 : c.arg2 = b.arg2
  arg3 : c.arg3 = b.arg3

/-- `c` agrees with `b` in RES0 to RES4. -/
structure SameResults (b c : Netblk) : Prop where
  res0 : c.res0 = b.res0
  res1 : c.res1 = b.res1
  res2 : c.res2 = b.res2
  res3 : c.res3 = b.res3
  res4 : c.res4 = b.res4

/-- All that a read, or a write of BUF, can change: FAULT and BUF (R37 to R41). -/
def SameButFaultBuf (b c : Netblk) : Prop := ∃ (f : Word) (m : Memory), c = { b with fault := f, buf := m }

namespace SameButFaultBuf

theorem args {b c : Netblk} (h : SameButFaultBuf b c) : SameArgs b c := by
  obtain ⟨f, m, rfl⟩ := h
  exact ⟨rfl, rfl, rfl, rfl⟩

theorem results {b c : Netblk} (h : SameButFaultBuf b c) : SameResults b c ∧ c.status = b.status := by
  obtain ⟨f, m, rfl⟩ := h
  exact ⟨⟨rfl, rfl, rfl, rfl, rfl⟩, rfl⟩

theorem refl (b : Netblk) : SameButFaultBuf b b := ⟨b.fault, b.buf, rfl⟩

theorem takeHostFault (f : FaultCode) (b : Netblk) : SameButFaultBuf b (takeHostFault f b) := ⟨_, b.buf, rfl⟩

theorem readByte (b : Netblk) (a : Nat) : SameButFaultBuf b (readByte b a).1 := by
  unfold Machine.readByte
  split
  · exact refl b
  · split
    · exact takeHostFault .staleView b
    · split
      · exact takeHostFault .bus b
      · exact refl b
  · exact takeHostFault .bus b
  · exact takeHostFault .bus b

theorem writeByte (a : Nat) (v : Byte) (b : Netblk) : SameButFaultBuf b (writeByte a v b) := by
  unfold Machine.writeByte
  split
  · exact ⟨b.fault, _, rfl⟩
  all_goals exact takeHostFault .bus b

theorem readWord (b : Netblk) (a : Addr) : SameButFaultBuf b (readWord b a).1 := by
  unfold Machine.readWord
  split
  · exact refl b
  · exact takeHostFault .bus b

end SameButFaultBuf

/-- R38: what a register write other than CMD's does. -/
theorem writeWord_cases (r : Option Reg) (v : Word) (b : Netblk) :
    (r = some .arg0 ∧ writeWord r v b = { b with arg0 := v }) ∨
    (r = some .arg1 ∧ writeWord r v b = { b with arg1 := v }) ∨
    (r = some .arg2 ∧ writeWord r v b = { b with arg2 := v }) ∨
    (r = some .arg3 ∧ writeWord r v b = { b with arg3 := v }) ∨
    writeWord r v b = takeHostFault .bus b := by
  unfold writeWord
  split
  · exact .inl ⟨rfl, rfl⟩
  · exact .inr (.inl ⟨rfl, rfl⟩)
  · exact .inr (.inr (.inl ⟨rfl, rfl⟩))
  · exact .inr (.inr (.inr (.inl ⟨rfl, rfl⟩)))
  · exact .inr (.inr (.inr (.inr rfl)))

theorem writeWord_results (r : Option Reg) (v : Word) (b : Netblk) :
    SameResults b (writeWord r v b) ∧ (writeWord r v b).status = b.status := by
  rcases writeWord_cases r v b with ⟨-, h⟩ | ⟨-, h⟩ | ⟨-, h⟩ | ⟨-, h⟩ | h <;> rw [h] <;>
    exact ⟨⟨rfl, rfl, rfl, rfl, rfl⟩, rfl⟩

/-- R24: an operand that differs between `b` and `c` is what `i` writes at that operand's own address. -/
def ArgsByWrite (i : Instr) (b c : Netblk) : Prop :=
  (c.arg0 ≠ b.arg0 → i = .wr32 0x08 c.arg0) ∧ (c.arg1 ≠ b.arg1 → i = .wr32 0x0C c.arg1) ∧
  (c.arg2 ≠ b.arg2 → i = .wr32 0x10 c.arg2) ∧ (c.arg3 ≠ b.arg3 → i = .wr32 0x14 c.arg3)

theorem SameArgs.byWrite {b c : Netblk} (h : SameArgs b c) (i : Instr) : ArgsByWrite i b c :=
  ⟨absurd h.arg0, absurd h.arg1, absurd h.arg2, absurd h.arg3⟩

theorem writeWord_argsByWrite (a : Addr) (v : Word) (b : Netblk) :
    ArgsByWrite (.wr32 a v) b (writeWord (regAt a) v b) := by
  have hself : ∀ {p : Prop} {w : Word}, w ≠ w → p := fun h => absurd rfl h
  rcases writeWord_cases (regAt a) v b with ⟨hr, h⟩ | ⟨hr, h⟩ | ⟨hr, h⟩ | ⟨hr, h⟩ | h <;> rw [h]
  · exact ⟨fun _ => eq_regAddr_of_regAt hr ▸ rfl, hself, hself, hself⟩
  · exact ⟨hself, fun _ => eq_regAddr_of_regAt hr ▸ rfl, hself, hself⟩
  · exact ⟨hself, hself, fun _ => eq_regAddr_of_regAt hr ▸ rfl, hself⟩
  · exact ⟨hself, hself, hself, fun _ => eq_regAddr_of_regAt hr ▸ rfl⟩
  · exact (SameButFaultBuf.takeHostFault .bus b).args.byWrite _

/-- R63: no end of the command sequence changes an operand. -/
theorem commandSequence_args {body : Netblk → Except FaultCode Netblk}
    (hbody : ∀ b c, body b = .ok c → SameControl b c) (w : Word) (b : Netblk) :
    SameArgs b (commandSequence w body b) := by
  rcases commandSequence_cases w body b with ⟨-, h⟩ | ⟨-, f, -, h⟩ | ⟨-, c, hc, h⟩ <;> rw [h]
  · exact ⟨rfl, rfl, rfl, rfl⟩
  · exact ⟨rfl, rfl, rfl, rfl⟩
  · have hkept := hbody _ _ hc
    exact ⟨hkept.arg0, hkept.arg1, hkept.arg2, hkept.arg3⟩

/-- R62: an illegal word in CMD leaves the results. -/
theorem illegalCommand_results (w : Word) (b : Netblk) :
    SameResults b (commandSequence w (fun _ => .error .illegal) b) := by
  rcases commandSequence_cases w (fun _ => .error .illegal) b with ⟨-, h⟩ | ⟨-, f, -, h⟩ | ⟨-, c, hc, -⟩
  · rw [h]
    exact ⟨rfl, rfl, rfl, rfl, rfl⟩
  · rw [h]
    exact ⟨rfl, rfl, rfl, rfl, rfl⟩
  · cases hc

section Exec

variable {i : Instr} {s t : State}

/-- R24: what an instruction does to the operands. -/
theorem exec_argsByWrite (ht : exec i s = .next t) : ArgsByWrite i s.toNetblk t.toNetblk := by
  by_cases hcmd : ∃ w, WritesCmd i w
  · obtain ⟨w, hw⟩ := hcmd
    obtain ⟨body, hbody, hexec⟩ := exec_of_writesCmd hw
    rw [hexec, runCommand_eq] at ht
    cases ht
    exact (commandSequence_args hbody w s.toNetblk).byWrite i
  · have hnot := not_exists.mp hcmd
    cases i with
    | rd8 a => cases ht; exact (SameButFaultBuf.readByte s.toNetblk a.toNat).args.byWrite _
    | wr8 a v => cases ht; exact (SameButFaultBuf.writeByte a.toNat v s.toNetblk).args.byWrite _
    | rd32 a => cases ht; exact (SameButFaultBuf.readWord s.toNetblk a).args.byWrite _
    | wr32 a v =>
      have ha : a ≠ 0 := fun h => hnot v (.inr (h ▸ rfl))
      rw [exec_wr32_of_ne_cmd ha] at ht
      cases ht
      exact writeWord_argsByWrite a v s.toNetblk
    | _ => exact absurd (.inl rfl) (hnot _)

/-- R19, R25: what an instruction that starts no command does to the results and to STATUS. -/
theorem exec_results_of_no_command (hi : startedCommand i = none) (ht : exec i s = .next t) :
    SameResults s.toNetblk t.toNetblk ∧ ((∀ w, i ≠ .wr32 0x00 w) → t.status = s.status) := by
  cases i with
  | rd8 a => cases ht; exact (SameButFaultBuf.readByte s.toNetblk a.toNat).results.imp_right fun h _ => h
  | wr8 a v => cases ht; exact (SameButFaultBuf.writeByte a.toNat v s.toNetblk).results.imp_right fun h _ => h
  | rd32 a => cases ht; exact (SameButFaultBuf.readWord s.toNetblk a).results.imp_right fun h _ => h
  | wr32 a v =>
    by_cases ha : a = 0
    · subst ha
      rw [exec_wr32_cmd_illegal hi, runCommand_eq] at ht
      cases ht
      exact ⟨illegalCommand_results v s.toNetblk, fun h => absurd rfl (h v)⟩
    · rw [exec_wr32_of_ne_cmd ha] at ht
      cases ht
      exact (writeWord_results (regAt a) v s.toNetblk).imp_right fun h _ => h
  | _ => cases hi

end Exec

/-- Settles O20: the operands by `exec_argsByWrite`, the results and STATUS by `exec_results_of_no_command`. -/
theorem whoWritesRegisters : Obligations.WhoWritesRegisters := by
  intro i s t ht
  obtain ⟨h0, h1, h2, h3⟩ := exec_argsByWrite ht
  refine ⟨h0, h1, h2, h3, fun hi => ?_⟩
  obtain ⟨hres, hstatus⟩ := exec_results_of_no_command hi ht
  exact ⟨hres.res0, hres.res1, hres.res2, hres.res3, hres.res4, hstatus⟩

end Sys2Proof.Machine
